-- ==== Sys2Proof/Word.lean ====
section
/-! DEFINITION. The two widths of the machine (spec/00_scope.md R6): 8-bit data and 4-bit addresses. -/

namespace Sys2Proof

/-- A data value: register A or B, a memory cell, a byte on the display bus (R6). -/
abbrev Byte := BitVec 8

/-- A 4-bit value: the program counter, an address, an operand, an opcode (R6). -/
abbrev Nibble := BitVec 4

end Sys2Proof
end

