-- ==== Sys2Proof/Config.lean ====
section
/-! DEFINITION. What the platform fixes (spec/00_scope.md R7) and the values the spec leaves free. -/

namespace Sys2Proof

/-- `SUB_DISPLAY` of R7: the Formatter calls SUB makes in step 2 of the cycle. -/
inductive SubDisplay where
  | none
  | bThenA
deriving DecidableEq, Repr

/-- The parameters of R7 that change what is drawn. A state carries them and no step changes them, so a
statement about every state holds for every value (log 2). -/
structure Params where
  /-- `ADD_SHOWS_A`: ADD calls `showA` after `showB` (decision D7, conflict C2). -/
  addShowsA : Bool
  /-- `SUB_DISPLAY`: what SUB draws (decision D8). -/
  subDisplay : SubDisplay
  /-- `STATUS_HEX_UPPER`: the PC digit of `showStatus` is upper case (decision D10). -/
  statusHexUpper : Bool
deriving DecidableEq, Repr

/-- The defaults of R7. -/
def Params.default : Params := ⟨true, .none, false⟩

/-- FREE VALUE (log 3). The byte the display controller answers to the `n`-th poll that no scripted answer covers:
the `BUSY` oracle of R7 and 45_display_driver R172. No body: nothing is known of it. -/
opaque Config.busyAnswer : Nat → Byte

/-- FREE VALUE (log 4). What the data lines carry, on the `n`-th occasion CORE drives them with no write in progress
(45_display_driver R161 and the "any" entries of R170; U9 of 93_implementation_defined). No body. -/
opaque Config.floatingData : Nat → Byte

end Sys2Proof
end

