-- ==== Sys2Proof/Machine/State.lean ====
section
/-! DEFINITION. The machine's state: the tuple of spec/10_state.md R31 and the model's own place in the cycle. -/

namespace Sys2Proof.Machine

/-- Run state `RUN` (10_state R27). -/
inductive RunState where
  | running
  | halted
deriving DecidableEq, Repr

/-- Driver protocol state `DRV` (10_state R30, 45_display_driver R162). -/
inductive DriverState where
  | idle
  | awaitingReady
  | writing
deriving DecidableEq, Repr

/-- Data-bus direction `DIR` (10_state R30): `write`, CORE drives the data lines; `read`, CORE samples them. -/
inductive BusDir where
  | write
  | read
deriving DecidableEq, Repr

/-- Register-select `RS` (45_display_driver R160): low for a command, asserted for character memory. -/
inductive RegSelect where
  | low
  | asserted
deriving DecidableEq, Repr

/-- Read/write line `RW` (45_display_driver R160), by its logical values. -/
inductive ReadWrite where
  | write
  | read
deriving DecidableEq, Repr

/-- Enable line `E` (45_display_driver R160). -/
inductive Enable where
  | deasserted
  | asserted
deriving DecidableEq, Repr

/-- One event of the bus trace (45_display_driver R171). -/
inductive BusEvent where
  /-- One busy-flag read, with the byte sampled. -/
  | poll (sample : Byte)
  /-- One write with RS low. -/
  | cmd (byte : Byte)
  /-- One write with RS asserted. -/
  | chr (byte : Byte)
deriving DecidableEq, Repr

/-- One fixed wait (45_display_driver R173), by the name R7 gives its duration. -/
inductive Delay where
  | tCmd
  | tChar
  | tInstr
deriving DecidableEq, Repr

/-- One call of the Driver (45_display_driver R164, R165). -/
inductive DriverCall where
  | writeCommand (byte : Byte)
  | writeChar (byte : Byte)
deriving DecidableEq, Repr

/-- Where a Driver call stands: the rows of the phase table of 45_display_driver R170, in time order; the row
"turn-round" has two pin states and so two phases. -/
inductive Phase where
  /-- Poll iteration, set-up. -/
  | pollSetup
  /-- Poll iteration, sample: E is asserted and the controller drives the data lines. -/
  | pollSample
  /-- Poll iteration, end, with the byte sampled. -/
  | pollEnd (sample : Byte)
  /-- After the last poll, turn-round, RW still read. -/
  | turnRead
  /-- After the last poll, turn-round, RW now write. -/
  | turnWrite
  /-- Write, set-up. -/
  | setup
  /-- Write, pulse. -/
  | pulse
  /-- Write, end. -/
  | writeEnd
  /-- Either write, release; the settle delay runs here. -/
  | release
deriving DecidableEq, Repr

/-- A Driver call in progress. -/
structure Transfer where
  call : DriverCall
  phase : Phase
deriving DecidableEq, Repr

/-- Which step of the cycle the Engine takes once no Driver call is left (40_engine_cycle R91 to R94). -/
inductive Stage where
  /-- Step 1 and step 2: fetch, decode, dispatch. -/
  | fetch
  /-- Step 2 is done; step 3, the status refresh, comes next. -/
  | dispatched
  /-- Step 3 is done; step 4, the advance, comes next. -/
  | refreshed
deriving DecidableEq, Repr

/-- Memory as (address, byte) pairs in one canonical form (`Memory.wf` in Machine/Ops.lean). -/
abbrev Memory := List Host.Cell

/-- The state of CORE (10_state R31), what the model records for observation, and the model's place in the cycle. -/
structure State where
  /-- Register A, the accumulator (R20). -/
  a : Byte
  /-- Register B, the scratch register (R21). -/
  b : Byte
  /-- Zero flag (R22). -/
  z : Bool
  /-- Carry flag (R23). -/
  c : Bool
  /-- Program counter (R25). -/
  pc : Nibble
  /-- Memory (R26). -/
  mem : Memory
  /-- Run state (R27). -/
  run : RunState
  /-- Driver protocol state (R30). -/
  drv : DriverState
  /-- Data-bus direction (R30). -/
  dir : BusDir
  /-- Register-select output (R30). -/
  rs : RegSelect
  /-- Read/write output (R30). -/
  rw : ReadWrite
  /-- Enable output (R30). -/
  e : Enable
  /-- The byte driven on the data lines while `dir` is `write` (R30). -/
  dout : Byte
  /-- The bus trace, oldest event first (45_display_driver R171). -/
  trace : List BusEvent
  /-- The fixed waits taken, oldest first (45_display_driver R173). -/
  delays : List Delay
  /-- The parameters of 00_scope R7; no step changes them. -/
  params : Params
  /-- MODEL: the Engine's next step. -/
  stage : Stage
  /-- MODEL: the Driver calls made and not begun, in order. -/
  pending : List DriverCall
  /-- MODEL: the Driver call in progress. -/
  active : Option Transfer
  /-- MODEL, environment: the answers of the display controller to the next polls, as far as they are given. -/
  answers : List Byte
  /-- MODEL: how many polls the free oracle `Config.busyAnswer` has answered. -/
  polls : Nat
  /-- MODEL: how many values `Config.floatingData` has given the data lines. -/
  draws : Nat
deriving DecidableEq, Repr

/-- Why the machine stops with a fault: never. "A model's step function needs no fault outcome for the Engine"
(60_exceptions R210), and a silent display is an infinite run, not a fault (R215). Nobody raises one. -/
inductive Fault where
deriving DecidableEq, Repr

/-- Why the model gives an instruction no meaning. -/
inductive Refusal where
  /-- The instruction has no meaning yet. It would be raised by an arm of `exec`, which is safe; no arm raises it. -/
  | notModelled (mnemonic : String)
deriving DecidableEq, Repr

/-- What a meaning and a step answer. -/
abbrev Result := Host.Outcome State Fault Refusal

/-- The state after reset (10_state R32) over a given memory and given parameters. `dout`, which R32 leaves open, is 0
(log 5); the model's own counters start at 0 and no answer is scripted (log 3, log 4). -/
def State.resetWith (params : Params) (mem : Memory) : State where
  a := 0
  b := 0
  z := false
  c := false
  pc := 0
  mem := mem
  run := .running
  drv := .idle
  dir := .write
  rs := .low
  rw := .write
  e := .deasserted
  dout := 0
  trace := []
  delays := []
  params := params
  stage := .fetch
  pending := []
  active := none
  answers := []
  polls := 0
  draws := 0

/-- The machine right after reset (10_state R32) with the default parameters of 00_scope R7 and nothing listed in
memory: no image has been supplied (log 1; `State.boot` in Machine/Boot.lean takes the image). -/
def State.reset : State := State.resetWith Params.default []

end Sys2Proof.Machine
end

