-- ==== Sys2Proof/Syntax.lean ====
section
/-! DEFINITION. The instructions: one constructor per row of spec/opcode_table.json. -/

namespace Sys2Proof

/-- The 16 rows of the opcode map (30_encoding R73). Every row carries the 4-bit operand field of its cell, also where
the instruction ignores it (R75), so that an instruction says every bit of its cell (log 15). -/
inductive Instr where
  /-- Opcode 0, no operation (43_control R130). -/
  | nop (ignored : Nibble)
  /-- Opcode 1, load A from memory (41_load_store R110). -/
  | lda (addr : Nibble)
  /-- Opcode 2, add memory to A (42_arithmetic R120). -/
  | add (addr : Nibble)
  /-- Opcode 3, one's-complement subtract memory from A (42_arithmetic R121). -/
  | sub (addr : Nibble)
  /-- Opcode 4, store A to memory (41_load_store R111). -/
  | sta (addr : Nibble)
  /-- Opcode 5, load an immediate (41_load_store R112). -/
  | ldi (imm : Nibble)
  /-- Opcode 6, jump (43_control R132). -/
  | jmp (target : Nibble)
  /-- Opcode 7, jump if carry (43_control R133). -/
  | jc (target : Nibble)
  /-- Opcode 8, jump if zero (43_control R134). -/
  | jz (target : Nibble)
  /-- Opcode 9, unmapped, executes as NOP (43_control R131). -/
  | nop9 (ignored : Nibble)
  /-- Opcode 10, unmapped, executes as NOP (43_control R131). -/
  | nop10 (ignored : Nibble)
  /-- Opcode 11, unmapped, executes as NOP (43_control R131). -/
  | nop11 (ignored : Nibble)
  /-- Opcode 12, unmapped, executes as NOP (43_control R131). -/
  | nop12 (ignored : Nibble)
  /-- Opcode 13, unmapped, executes as NOP (43_control R131). -/
  | nop13 (ignored : Nibble)
  /-- Opcode 14, show A in decimal (44_output R150). -/
  | out (ignored : Nibble)
  /-- Opcode 15, halt (43_control R135). -/
  | hlt (ignored : Nibble)
deriving DecidableEq, Repr

/-- A program image, lowest address first (00_scope R7 `IMAGE`); `Image.wellFormed` says it has 16 bytes. -/
abbrev Image := List Byte

end Sys2Proof
end

