-- ==== Sys2Proof/Machine/Ops.lean ====
section
/-! DEFINITION. The named operations over memory and registers (spec/20_memory.md R52, spec/10_state.md R20 to R27).
Taking an exception and returning from one have no operation: the machine has neither (60_exceptions R210 to R214). -/

namespace Sys2Proof.Machine

/-- What an unlisted cell reads as (log 1). -/
def blankCell : Byte := 0

/-- How many cells there are (20_memory R50). -/
def memorySize : Nat := 16

/-- The cell at an address. -/
def Memory.readAt : Memory → Nat → Byte
  | [], _ => blankCell
  | cell :: rest, addr => if cell.1 = addr then cell.2 else Memory.readAt rest addr

/-- The list without the entries of an address. -/
def Memory.erase : Memory → Nat → Memory
  | [], _ => []
  | cell :: rest, addr => if cell.1 = addr then Memory.erase rest addr else cell :: Memory.erase rest addr

/-- The list with an entry put before the first one at a higher address. -/
def Memory.insert : Memory → Nat → Byte → Memory
  | [], addr, v => [(addr, v)]
  | cell :: rest, addr, v =>
    if addr < cell.1 then (addr, v) :: cell :: rest else cell :: Memory.insert rest addr v

/-- Replace the cell at an address; the value an unlisted cell reads as removes the entry. -/
def Memory.writeAt (m : Memory) (addr : Nat) (v : Byte) : Memory :=
  if v = blankCell then m.erase addr else (m.erase addr).insert addr v

/-- The canonical form from an address up: addresses strictly rising and below 16, no cell listed at the value an
unlisted one reads as. -/
def Memory.wfFrom : Nat → Memory → Bool
  | _, [] => true
  | low, cell :: rest =>
    decide (low ≤ cell.1) && decide (cell.1 < memorySize) && (cell.2 != blankCell) && Memory.wfFrom (cell.1 + 1) rest

/-- The canonical form of memory: equal memories are equal lists. -/
def Memory.wf (m : Memory) : Bool := Memory.wfFrom 0 m

/-- The cells of an image from an address up; a byte past the last cell has no place. -/
def Memory.ofImageFrom : Nat → Image → Memory
  | _, [] => []
  | addr, v :: rest =>
    if addr < memorySize ∧ v ≠ blankCell then (addr, v) :: Memory.ofImageFrom (addr + 1) rest
    else Memory.ofImageFrom (addr + 1) rest

/-- An image "loaded verbatim into memory" (20_memory R56). -/
def Memory.ofImage (image : Image) : Memory := Memory.ofImageFrom 0 image

/-- `MemRead(addr, 1)` (20_memory R52): a 4-bit address always names a cell (R51). -/
def State.memRead (s : State) (addr : Nibble) : Byte := s.mem.readAt addr.toNat

/-- `MemWrite(addr, 1, v)` (20_memory R52). -/
def State.memWrite (s : State) (addr : Nibble) (v : Byte) : State :=
  { s with mem := s.mem.writeAt addr.toNat v }

/-- `A <- v` (10_state R20). -/
def State.writeA (s : State) (v : Byte) : State := { s with a := v }

/-- `B <- v` (10_state R21). -/
def State.writeB (s : State) (v : Byte) : State := { s with b := v }

/-- `Z <- v` (10_state R22). -/
def State.writeZ (s : State) (v : Bool) : State := { s with z := v }

/-- `C <- v` (10_state R23). -/
def State.writeC (s : State) (v : Bool) : State := { s with c := v }

/-- `PC <- target` (10_state R25). -/
def State.writePc (s : State) (target : Nibble) : State := { s with pc := target }

/-- `RUN <- HALTED` (10_state R27). -/
def State.halt (s : State) : State := { s with run := .halted }

/-- The end of step 2 (40_engine_cycle R92): the instruction's Formatter calls are made, after its writes (R97), and the
status refresh comes next. -/
def State.dispatched (s : State) (calls : List DriverCall) : State :=
  { s with pending := s.pending ++ calls, stage := .dispatched }

end Sys2Proof.Machine
end

