-- ==== Sys2Proof/Machine/Operands.lean ====
section
/-! DEFINITION. The three uses of the operand field (spec/30_encoding.md R72). -/

namespace Sys2Proof.Machine

/-- The operand is a memory address, and the operand value is the cell there (LDA, ADD, SUB). -/
def State.memOperand (s : State) (operand : Nibble) : Byte := s.memRead operand

/-- The operand is an immediate, "the operand itself, not a memory lookup": `zext_8(operand)` (LDI). -/
def immOperand (operand : Nibble) : Byte := operand.setWidth 8

/-- The operand is a jump target, "4 bits to 4 bits, no extension, no scaling" (JMP, JC, JZ). -/
def targetOperand (operand : Nibble) : Nibble := operand

end Sys2Proof.Machine
end

