-- ==== Sys2Proof/Machine/Flags.lean ====
section
/-! DEFINITION. The adder and the two flags (spec/42_arithmetic.md R120 to R123, spec/10_state.md R22, R23). -/

namespace Sys2Proof.Machine

/-- The 9-bit intermediate `zext_9(a) + zext_9(b)` (R122): it cannot itself overflow. -/
def sum9 (a b : Byte) : BitVec 9 := a.setWidth 9 + b.setWidth 9

/-- `C <- (sum > 0xFF)` (10_state R23). -/
def carryFlag (sum : BitVec 9) : Bool := decide (sum > 0xFF#9)

/-- `sum & 0xFF` (R122). -/
def sumResult (sum : BitVec 9) : Byte := sum.setWidth 8

/-- `Z <- (A == 0)` for the new A (10_state R22). -/
def zeroFlag (result : Byte) : Bool := result == 0

/-- The operation of ADD: "sum = A + B" (R120). -/
def addSum (a b : Byte) : BitVec 9 := sum9 a b

/-- The operation of SUB: "sum = A + (B ^ 0xFF) (one's-complement of B, no added carry-in bit)" (R121). -/
def subSum (a b : Byte) : BitVec 9 := sum9 a (b ^^^ 0xFF)

/-- Write A and the Zero flag of the value written: every instruction that writes A does both (10_state R22). -/
def State.loadA (s : State) (v : Byte) : State := (s.writeA v).writeZ (zeroFlag v)

/-- Write C, A and Z from a 9-bit sum, in the order of R120 and R121. -/
def State.writeSum (s : State) (sum : BitVec 9) : State := (s.writeC (carryFlag sum)).loadA (sumResult sum)

end Sys2Proof.Machine
end

