-- ==== Sys2Proof/Machine/Formatter.lean ====
section
/-! DEFINITION. The Display Formatter (spec/46_display_formatter.md): pure functions from values to Driver calls
(R199). -/

namespace Sys2Proof.Machine

/-- A character as its 7-bit ASCII code in a byte (R190; PRESUMED by decision D11, log 9). -/
def ascii (ch : Char) : Byte := BitVec.ofNat 8 ch.toNat

/-- `hexdigit(n)`: `0` to `9`, then lowercase `a` to `f` (R191). -/
def hexDigit (n : Nibble) : Byte :=
  if n.toNat < 10 then ascii '0' + n.setWidth 8 else ascii 'a' + (n.setWidth 8 - 10)

/-- The same digit with `A` to `F`, for `STATUS_HEX_UPPER = true` (R195). -/
def hexDigitUpper (n : Nibble) : Byte :=
  if n.toNat < 10 then ascii '0' + n.setWidth 8 else ascii 'A' + (n.setWidth 8 - 10)

/-- `digit(k)`: the character `0` + k (R192). -/
def decDigit (k : Nat) : Byte := ascii '0' + BitVec.ofNat 8 k

/-- `hex2(v)`: always two characters, high digit first (R191). -/
def hex2 (v : Byte) : List Byte := [hexDigit (v.extractLsb' 4 4), hexDigit (v.extractLsb' 0 4)]

/-- `dec3(v)`: right-justified, space-padded decimal in exactly 3 characters (R192). -/
def dec3 (v : Byte) : List Byte :=
  if v.toNat > 99 then [decDigit (v.toNat / 100), decDigit (v.toNat / 10 % 10), decDigit (v.toNat % 10)]
  else if v.toNat > 9 then [ascii ' ', decDigit (v.toNat / 10), decDigit (v.toNat % 10)]
  else [ascii ' ', ascii ' ', decDigit v.toNat]

/-- `setCursorAddress(addr)`: `writeCommand(addr | 0x80)` (45_display_driver R166). -/
def setCursorAddress (addr : Byte) : DriverCall := .writeCommand (addr ||| 0x80)

/-- A field: the cursor is set and the characters follow (R197). -/
def drawField (addr : Byte) (text : List Byte) : List DriverCall :=
  setCursorAddress addr :: text.map DriverCall.writeChar

/-- `showA(value)` (R193). -/
def showA (v : Byte) : List DriverCall := drawField 0x00 (ascii 'A' :: ascii '=' :: hex2 v)

/-- `showB(value)` (R194). -/
def showB (v : Byte) : List DriverCall := drawField 0x05 (ascii 'B' :: ascii '=' :: hex2 v)

/-- The PC digit of `showStatus` (R195), lowercase unless `STATUS_HEX_UPPER` (log 2). -/
def statusDigit (params : Params) (pc : Nibble) : Byte :=
  if params.statusHexUpper then hexDigitUpper pc else hexDigit pc

/-- `showStatus(pc, zero, carry)`: five characters (R195, conflict C1, log 10). -/
def showStatus (params : Params) (pc : Nibble) (z c : Bool) : List DriverCall :=
  drawField 0x0A [ascii 'P', ascii '=', statusDigit params pc, if z then ascii 'Z' else ascii ' ',
    if c then ascii 'C' else ascii ' ']

/-- `showOutput(value)` (R196). -/
def showOutput (v : Byte) : List DriverCall := drawField 0x4D (dec3 v)

/-- The Formatter calls of ADD in step 2 (40_engine_cycle R99): `showB(B)`, then `showA(A)` if `ADD_SHOWS_A`. -/
def addCalls (params : Params) (a b : Byte) : List DriverCall :=
  showB b ++ if params.addShowsA then showA a else []

/-- The Formatter calls of SUB in step 2 (40_engine_cycle R99): none, or those of `SUB_DISPLAY = B_then_A`. -/
def subCalls (params : Params) (a b : Byte) : List DriverCall :=
  match params.subDisplay with
  | .none => []
  | .bThenA => showB b ++ showA a

end Sys2Proof.Machine
end

