-- ==== Sys2Proof/Machine/Arithmetic.lean ====
section
/-! DEFINITION. Step 2 of ADD and SUB (spec/42_arithmetic.md). -/

namespace Sys2Proof.Machine

/-- The writes of ADD (R120): B, then C, A and Z from the sum of the old A and the new B. -/
def State.addWrites (s : State) (operand : Nibble) : State :=
  (s.writeB (s.memOperand operand)).writeSum (addSum s.a (s.memOperand operand))

/-- The writes of SUB (R121): B holds the operand itself, the sum takes its complement. -/
def State.subWrites (s : State) (operand : Nibble) : State :=
  (s.writeB (s.memOperand operand)).writeSum (subSum s.a (s.memOperand operand))

/-- ADD (R120): its writes, then `showB(B)` and `showA(A)` (parameter `ADD_SHOWS_A`). -/
def execAdd (operand : Nibble) (s : State) : Result :=
  .next ((s.addWrites operand).dispatched
    (addCalls s.params (s.addWrites operand).a (s.addWrites operand).b))

/-- SUB (R121): its writes; what it draws is the parameter `SUB_DISPLAY`, by default nothing. -/
def execSub (operand : Nibble) (s : State) : Result :=
  .next ((s.subWrites operand).dispatched
    (subCalls s.params (s.subWrites operand).a (s.subWrites operand).b))

end Sys2Proof.Machine
end

