-- ==== Sys2Proof/Machine/Control.lean ====
section
/-! DEFINITION. Step 2 of NOP, NOP_9 to NOP_13, JMP, JC, JZ and HLT (spec/43_control.md). -/

namespace Sys2Proof.Machine

/-- Nothing happens in step 2 (R130, R131). -/
def State.noOperation (s : State) : State := s.dispatched []

/-- `if taken: PC <- operand`; step 4 still adds one (R132 to R134, 40_engine_cycle R95). -/
def State.jumpIf (s : State) (taken : Bool) (operand : Nibble) : State :=
  if taken then (s.writePc (targetOperand operand)).dispatched [] else s.dispatched []

/-- NOP, opcode 0 (R130). -/
def execNop (_ignored : Nibble) (s : State) : Result := .next s.noOperation

/-- NOP_9, opcode 9, unmapped (R131). -/
def execNop9 (_ignored : Nibble) (s : State) : Result := .next s.noOperation

/-- NOP_10, opcode 10, unmapped (R131). -/
def execNop10 (_ignored : Nibble) (s : State) : Result := .next s.noOperation

/-- NOP_11, opcode 11, unmapped (R131). -/
def execNop11 (_ignored : Nibble) (s : State) : Result := .next s.noOperation

/-- NOP_12, opcode 12, unmapped (R131). -/
def execNop12 (_ignored : Nibble) (s : State) : Result := .next s.noOperation

/-- NOP_13, opcode 13, unmapped (R131). -/
def execNop13 (_ignored : Nibble) (s : State) : Result := .next s.noOperation

/-- JMP (R132). -/
def execJmp (operand : Nibble) (s : State) : Result := .next (s.jumpIf true operand)

/-- JC (R133): the flag is read, not cleared. -/
def execJc (operand : Nibble) (s : State) : Result := .next (s.jumpIf s.c operand)

/-- JZ (R134): the flag as last written, not recomputed from A. -/
def execJz (operand : Nibble) (s : State) : Result := .next (s.jumpIf s.z operand)

/-- HLT (R135): `RUN <- HALTED`; steps 3 and 4 follow, and step 4 leaves PC. -/
def execHlt (_ignored : Nibble) (s : State) : Result := .next (s.halt.dispatched [])

end Sys2Proof.Machine
end

