-- ==== Sys2Proof/Machine/LoadStore.lean ====
section
/-! DEFINITION. Step 2 of LDA, STA and LDI (spec/41_load_store.md). -/

namespace Sys2Proof.Machine

/-- LDA (R110): `A <- MemRead(operand)`, Z, `showA(A)`. -/
def execLda (operand : Nibble) (s : State) : Result :=
  .next ((s.loadA (s.memOperand operand)).dispatched (showA (s.memOperand operand)))

/-- STA (R111): `MemWrite(operand, A)`; nothing is drawn. -/
def execSta (operand : Nibble) (s : State) : Result :=
  .next ((s.memWrite operand s.a).dispatched [])

/-- LDI (R112): `A <- zext_8(operand)`, Z, `showA(A)`. -/
def execLdi (operand : Nibble) (s : State) : Result :=
  .next ((s.loadA (immOperand operand)).dispatched (showA (immOperand operand)))

end Sys2Proof.Machine
end

