-- ==== Sys2Proof/Machine/Output.lean ====
section
/-! DEFINITION. Step 2 of OUT (spec/44_output.md). -/

namespace Sys2Proof.Machine

/-- OUT (R150): `showOutput(A)`; no register, flag or cell is written. -/
def execOut (_ignored : Nibble) (s : State) : Result := .next (s.dispatched (showOutput s.a))

end Sys2Proof.Machine
end

