-- ==== Sys2Proof/Machine/Dispatch.lean ====
section
/-! DEFINITION. Step 2 of the cycle, dispatch (spec/40_engine_cycle.md R92): one arm per row of the opcode table. -/

namespace Sys2Proof.Machine

def exec (i : Instr) (s : State) : Host.Outcome State Fault Refusal :=
  match i with
  | .nop n => Sys2Proof.Machine.execNop n s
  | .lda n => Sys2Proof.Machine.execLda n s
  | .add n => Sys2Proof.Machine.execAdd n s
  | .sub n => Sys2Proof.Machine.execSub n s
  | .sta n => Sys2Proof.Machine.execSta n s
  | .ldi n => Sys2Proof.Machine.execLdi n s
  | .jmp n => Sys2Proof.Machine.execJmp n s
  | .jc n => Sys2Proof.Machine.execJc n s
  | .jz n => Sys2Proof.Machine.execJz n s
  | .nop9 n => Sys2Proof.Machine.execNop9 n s
  | .nop10 n => Sys2Proof.Machine.execNop10 n s
  | .nop11 n => Sys2Proof.Machine.execNop11 n s
  | .nop12 n => Sys2Proof.Machine.execNop12 n s
  | .nop13 n => Sys2Proof.Machine.execNop13 n s
  | .out n => Sys2Proof.Machine.execOut n s
  | .hlt n => Sys2Proof.Machine.execHlt n s

end Sys2Proof.Machine
end

