-- ==== Sys2Proof/WellFormed.lean ====
section
/-! DEFINITION. Which terms stand for something of the machine. Every `Instr` does: each 4-bit operand of each opcode
is legal (30_encoding R71, R74, R75), and the operand's type holds nothing else. -/

namespace Sys2Proof

/-- "a 16-byte array supplied externally" (20_memory R56): an image of any other length is no image. -/
def Image.wellFormed (image : Image) : Bool := image.length == 16

/-- The canonical form of 30_encoding R75 and R78: an instruction that ignores its operand is written with operand 0.
The other forms are legal and run alike; this is the assembler's choice only. -/
def Instr.isCanonical : Instr → Bool
  | .nop n => n == 0
  | .lda _ => true
  | .add _ => true
  | .sub _ => true
  | .sta _ => true
  | .ldi _ => true
  | .jmp _ => true
  | .jc _ => true
  | .jz _ => true
  | .nop9 n => n == 0
  | .nop10 n => n == 0
  | .nop11 n => n == 0
  | .nop12 n => n == 0
  | .nop13 n => n == 0
  | .out n => n == 0
  | .hlt n => n == 0

end Sys2Proof
end

