-- ==== Sys2Proof/Decode.lean ====
section
/-! DEFINITION. Decoding a cell (spec/30_encoding.md R70 to R76) and encoding an instruction. -/

namespace Sys2Proof

/-- `opcode = cell >> 4`, that is `cell[7:4]` (R71). -/
def opcodeOf (cell : Byte) : Nibble := cell.extractLsb' 4 4

/-- `operand = cell & 0xF`, that is `cell[3:0]` (R71). -/
def operandOf (cell : Byte) : Nibble := cell.extractLsb' 0 4

/-- The opcode map of R73: total, each of the 16 opcode values its own row. The last arm is opcode 15, the one value
left. -/
def decodeFields (opcode operand : Nibble) : Instr :=
  match opcode.toNat with
  | 0 => .nop operand
  | 1 => .lda operand
  | 2 => .add operand
  | 3 => .sub operand
  | 4 => .sta operand
  | 5 => .ldi operand
  | 6 => .jmp operand
  | 7 => .jc operand
  | 8 => .jz operand
  | 9 => .nop9 operand
  | 10 => .nop10 operand
  | 11 => .nop11 operand
  | 12 => .nop12 operand
  | 13 => .nop13 operand
  | 14 => .out operand
  | _ => .hlt operand

/-- Decoding is total on the 256 cell values and reads nothing but the cell (R71). -/
def decode (cell : Byte) : Instr := decodeFields (opcodeOf cell) (operandOf cell)

/-- Why a list of cells holds no instruction. -/
inductive DecodeError where
  /-- There is no cell at all. Raised by `decodeCells` only; the machine always fetches a cell (R91). -/
  | noCell
deriving DecidableEq, Repr

/-- Decode the first instruction of a list of cells, with the cells after it: every instruction is one cell (R70, R76). -/
def decodeCells : List Byte → Except DecodeError (Instr × List Byte)
  | [] => .error .noCell
  | cell :: rest => .ok (decode cell, rest)

/-- The opcode of each row of R73. -/
def Instr.opcode : Instr → Nibble
  | .nop _ => 0
  | .lda _ => 1
  | .add _ => 2
  | .sub _ => 3
  | .sta _ => 4
  | .ldi _ => 5
  | .jmp _ => 6
  | .jc _ => 7
  | .jz _ => 8
  | .nop9 _ => 9
  | .nop10 _ => 10
  | .nop11 _ => 11
  | .nop12 _ => 12
  | .nop13 _ => 13
  | .out _ => 14
  | .hlt _ => 15

/-- The operand field of an instruction. -/
def Instr.operand : Instr → Nibble
  | .nop n => n
  | .lda n => n
  | .add n => n
  | .sub n => n
  | .sta n => n
  | .ldi n => n
  | .jmp n => n
  | .jc n => n
  | .jz n => n
  | .nop9 n => n
  | .nop10 n => n
  | .nop11 n => n
  | .nop12 n => n
  | .nop13 n => n
  | .out n => n
  | .hlt n => n

/-- `(opcode << 4) | n` (R78). -/
def encode (i : Instr) : Byte := (i.opcode.setWidth 8 <<< 4) ||| i.operand.setWidth 8

/-- The cell the host's table word stands for: its low `nbits` bits, the bits above them 0. -/
def tableCell (nbits w : Nat) : Byte := BitVec.ofNat 8 (w % 2 ^ nbits)

/-- The cells of a table word of `nbits` bits: one, since no instruction is longer (R76); none that long exists above 8
bits, so such a word is laid out as one cell followed by the next. -/
def tableCells (nbits w : Nat) : List Byte :=
  tableCell nbits w :: if nbits ≤ 8 then [] else [tableCell (nbits - 8) (w / 256)]

/-- What the decoder reads from a word of the host's opcode table; a word that is longer than the one cell an
instruction has is refused. -/
def decodeTableWord (nbits w : Nat) : Option Instr :=
  match decodeCells (tableCells nbits w) with
  | .ok (i, []) => some i
  | _ => none

end Sys2Proof
end

