-- ==== Sys2Proof/Machine/Driver.lean ====
section
/-! DEFINITION. The Display Protocol Driver (spec/45_display_driver.md R160 to R176), one pin state of R170 a step. -/

namespace Sys2Proof.Machine

/-- The byte a Driver call writes. -/
def DriverCall.byte : DriverCall → Byte
  | .writeCommand b => b
  | .writeChar b => b

/-- RS during the write phase: low for a command, asserted for a character (R164, R165). -/
def DriverCall.regSelect : DriverCall → RegSelect
  | .writeCommand _ => .low
  | .writeChar _ => .asserted

/-- The event a Driver call emits (R171). -/
def DriverCall.event : DriverCall → BusEvent
  | .writeCommand b => .cmd b
  | .writeChar b => .chr b

/-- The settle delay after a Driver call (R164, R165, R173). -/
def DriverCall.settle : DriverCall → Delay
  | .writeCommand _ => .tCmd
  | .writeChar _ => .tChar

/-- The busy indicator: "most-significant bit of the sampled byte" (R163). -/
def busy (sample : Byte) : Bool := sample.getLsbD 7

/-- The byte the display controller answers to the next poll: the scripted answer if one is left, else the free oracle
(R172, log 3). -/
def State.nextAnswer (s : State) : Byte :=
  match s.answers with
  | v :: _ => v
  | [] => Config.busyAnswer s.polls

/-- The state once that answer has been taken. -/
def State.takeAnswer (s : State) : State :=
  match s.answers with
  | _ :: rest => { s with answers := rest }
  | [] => { s with polls := s.polls + 1 }

/-- CORE drives the data lines with no write in progress: they carry any value (R161, R170, log 4). -/
def State.floatData (s : State) : State :=
  { s with dout := Config.floatingData s.draws, draws := s.draws + 1 }

/-- `emit event` (R171). -/
def State.emit (s : State) (event : BusEvent) : State := { s with trace := s.trace ++ [event] }

/-- `Delay(name)`: a marker only, since the model carries no time (R173, log 11). -/
def State.delay (s : State) (name : Delay) : State := { s with delays := s.delays ++ [name] }

/-- Move the call in progress to a phase. -/
def State.toPhase (s : State) (call : DriverCall) (phase : Phase) : State :=
  { s with active := some ⟨call, phase⟩ }

/-- A call is begun: Idle to AwaitingReady, the bus turned to read (R162, R163), the first poll set up. -/
def State.beginCall (s : State) (call : DriverCall) (rest : List DriverCall) : State :=
  { s with
    drv := .awaitingReady
    dir := .read
    rs := .low
    rw := .read
    e := .deasserted
    pending := rest
    active := some ⟨call, .pollSetup⟩ }

/-- Poll iteration, set-up: RS low and RW read (R163, decision D3). -/
def State.pollAgain (s : State) (call : DriverCall) : State :=
  ({ s with rs := .low, rw := .read }).toPhase call .pollSetup

/-- The poll's enable pulse begins (R163). -/
def State.pollPulse (s : State) (call : DriverCall) : State :=
  ({ s with e := .asserted }).toPhase call .pollSample

/-- The bus is sampled, the enable pulse ends and `Poll(s)` is emitted (R163). -/
def State.pollTake (s : State) (call : DriverCall) : State :=
  ({ s.takeAnswer with e := .deasserted }.emit (.poll s.nextAnswer)).toPhase call (.pollEnd s.nextAnswer)

/-- A not-busy sample: AwaitingReady to Writing, the bus back to write (R162, R163). -/
def State.turnRound (s : State) (call : DriverCall) : State :=
  ({ s with drv := .writing, dir := .write }.floatData).toPhase call .turnRead

/-- The second pin state of the turn-round: RW becomes write (R170). -/
def State.turnWrite (s : State) (call : DriverCall) : State :=
  ({ s with rw := .write }).toPhase call .turnWrite

/-- Write set-up: RS as the call needs it, RW write, the byte on the data lines (R164, R165). -/
def State.writeSetup (s : State) (call : DriverCall) : State :=
  ({ s with rs := call.regSelect, rw := .write, dout := call.byte }).toPhase call .setup

/-- The write's enable pulse begins (R164, R165). -/
def State.writePulse (s : State) (call : DriverCall) : State :=
  ({ s with e := .asserted }).toPhase call .pulse

/-- The write's enable pulse ends: the controller takes the byte, and the event is emitted (R164, R165). -/
def State.writeTake (s : State) (call : DriverCall) : State :=
  ({ s with e := .deasserted }.emit call.event).toPhase call .writeEnd

/-- "releases the bus": back to the resting levels of R161 (R164, decision D5). -/
def State.releaseBus (s : State) (call : DriverCall) : State :=
  ({ s with rs := .low, rw := .write }.floatData).toPhase call .release

/-- The settle delay has elapsed: Writing to Idle (R162, R164, decision D5). -/
def State.endCall (s : State) (call : DriverCall) : State :=
  { s.delay call.settle with drv := .idle, active := none }

/-- One step of the Driver call in progress (R163 to R165). The loop of `awaitReady` ends only on a not-busy sample: there
is no timeout (R169). -/
def State.driverStep (s : State) (x : Transfer) : State :=
  match x.phase with
  | .pollSetup => s.pollPulse x.call
  | .pollSample => s.pollTake x.call
  | .pollEnd sample => if busy sample then s.pollAgain x.call else s.turnRound x.call
  | .turnRead => s.turnWrite x.call
  | .turnWrite => s.writeSetup x.call
  | .setup => s.writePulse x.call
  | .pulse => s.writeTake x.call
  | .writeEnd => s.releaseBus x.call
  | .release => s.endCall x.call

/-- The electrical level of RS: asserted is high (R160; PRESUMED by decision D2, log 8). -/
def RegSelect.high : RegSelect → Bool
  | .low => false
  | .asserted => true

/-- The electrical level of RW: read is high (R160; PRESUMED by decision D2, log 8). -/
def ReadWrite.high : ReadWrite → Bool
  | .write => false
  | .read => true

/-- The electrical level of E: asserted is high (R160; PRESUMED by decision D2, log 8). -/
def Enable.high : Enable → Bool
  | .deasserted => false
  | .asserted => true

end Sys2Proof.Machine
end

