-- ==== Sys2Proof/Machine/Engine.lean ====
section
/-! DEFINITION. Steps 1, 3 and 4 of the cycle (spec/40_engine_cycle.md R91, R93, R94), the same for every instruction. -/

namespace Sys2Proof.Machine

/-- Step 1 (R91): the instruction in the cell at PC. -/
def State.fetch (s : State) : Instr := decode (s.memRead s.pc)

/-- Step 3 (R93): `showStatus(PC, Z, C)` with the values as step 2 left them. -/
def State.refreshStatus (s : State) : State :=
  { s with pending := s.pending ++ showStatus s.params s.pc s.z s.c, stage := .refreshed }

/-- Step 4 (R94): if still RUNNING, `PC <- (PC + 1) mod 16` and the inter-instruction delay; if HALTED, neither. -/
def State.advance (s : State) : State :=
  match s.run with
  | .running => { s.delay .tInstr with pc := s.pc + 1, stage := .fetch }
  | .halted => { s with stage := .fetch }

/-- The Driver at rest and the Engine before step 1, RUNNING: where the next step fetches (45_display_driver R161). -/
def State.toFetch (s : State) : State :=
  { s with
    run := .running
    drv := .idle
    dir := .write
    rs := .low
    rw := .write
    e := .deasserted
    stage := .fetch
    pending := []
    active := none }

end Sys2Proof.Machine
end

