-- ==== Sys2Proof/Machine/Step.lean ====
section
/-! DEFINITION. One step of the machine (spec/40_engine_cycle.md R90, R97): a Driver call in progress goes on first, then
the calls waiting, then the Engine's next step; a halted machine stays as it is. -/

namespace Sys2Proof.Machine

def step (s : State) : Host.Outcome State Fault Refusal :=
  match s.active with
  | some x => .next (s.driverStep x)
  | none =>
    match s.pending with
    | call :: rest => .next (s.beginCall call rest)
    | [] =>
      match s.stage with
      | .dispatched => .next s.refreshStatus
      | .refreshed => .next s.advance
      | .fetch =>
        match s.run with
        | .halted => .next s
        | .running => exec s.fetch s

/-- `s` with a word of the opcode table in the cell at PC, and so placed in the cycle that the next step fetches it. -/
def State.withFetchWord (s : State) (nbits w : Nat) : State :=
  s.toFetch.memWrite s.pc (tableCell nbits w)

end Sys2Proof.Machine
end

