-- ==== Sys2Proof/Machine/Boot.lean ====
section
/-! DEFINITION. Reset with an image (spec/70_reset_and_hazards.md R230, R231, spec/10_state.md R32). -/

namespace Sys2Proof.Machine

/-- The state after reset with a program image supplied and given parameters: every value of 10_state R32. -/
def State.boot (params : Params) (image : Image) : State := State.resetWith params (Memory.ofImage image)

/-- A later reset of a running or halted machine: "the same transition", every store undone (R230, decision D19, log 12).
It comes from outside; no step makes it. DESIGN CHOICE (log 12): the spec says what a later reset does to CORE and nothing
of what the environment answers after it. The environment is not reset: the scripted answers not yet taken are still to
come, and the counters of the two free values go on, so neither the busy answers nor the floating data repeat those of
before. -/
def State.restart (s : State) (image : Image) : State :=
  { State.boot s.params image with
    answers := s.answers
    polls := s.polls
    draws := s.draws }

end Sys2Proof.Machine
end

