-- ==== Sys2Proof/Machine/Cycle.lean ====
section
/-! DEFINITION. The whole cycle as one function on the architectural state: `Cycle()` of spec/40_engine_cycle.md R101,
written from that pseudocode on numbers and independent of `exec`, `decode` and `step`. The machine runs by `step`; this
is what a completed cycle is compared with. -/

namespace Sys2Proof.Machine

/-- The Engine's architectural state: the first seven entries of the tuple of 10_state R31. -/
structure Arch where
  a : Byte
  b : Byte
  z : Bool
  c : Bool
  pc : Nibble
  mem : Memory
  run : RunState
deriving DecidableEq, Repr

/-- The architectural part of a state. -/
def State.arch (s : State) : Arch := ⟨s.a, s.b, s.z, s.c, s.pc, s.mem, s.run⟩

/-- A, Z and C from a sum of 0 to 510: `C <- (sum > 0xFF); A <- sum & 0xFF; Z <- (A == 0)`. -/
def Arch.takeSum (t : Arch) (sum : Nat) : Arch :=
  { t with a := BitVec.ofNat 8 sum, z := sum % 256 == 0, c := decide (sum > 0xFF) }

/-- `if taken: PC <- operand`. -/
def Arch.jumpIf (t : Arch) (taken : Bool) (operand : Nat) : Arch :=
  if taken then { t with pc := BitVec.ofNat 4 operand } else t

/-- The `case opcode of` of R101, with the parameters of 00_scope R7: the state after step 2 and the Driver calls made. R101
is for the default parameters; the arms of ADD and SUB for other values are the model's reading (log 2, DEDUCED). -/
def Arch.dispatch (params : Params) (t : Arch) (opcode operand : Nat) : Arch × List DriverCall :=
  match opcode with
  | 1 => ({ t with a := t.mem.readAt operand, z := t.mem.readAt operand == 0 }, showA (t.mem.readAt operand))
  | 2 =>
    let m := t.mem.readAt operand
    let u := { t with b := m }.takeSum (t.a.toNat + m.toNat)
    (u, showB u.b ++ if params.addShowsA then showA u.a else [])
  | 3 =>
    let m := t.mem.readAt operand
    let u := { t with b := m }.takeSum (t.a.toNat + (255 - m.toNat))
    (u, match params.subDisplay with
      | .none => []
      | .bThenA => showB u.b ++ showA u.a)
  | 4 => ({ t with mem := t.mem.writeAt operand t.a }, [])
  | 5 => ({ t with a := BitVec.ofNat 8 operand, z := operand == 0 }, showA (BitVec.ofNat 8 operand))
  | 6 => (t.jumpIf true operand, [])
  | 7 => (t.jumpIf t.c operand, [])
  | 8 => (t.jumpIf t.z operand, [])
  | 14 => (t, showOutput t.a)
  | 15 => ({ t with run := .halted }, [])
  | _ => (t, [])

/-- Step 4 of R101: `if RUN == RUNNING: PC <- (PC + 1) mod 16`. -/
def Arch.advance (t : Arch) : Arch :=
  match t.run with
  | .running => { t with pc := BitVec.ofNat 4 ((t.pc.toNat + 1) % 16) }
  | .halted => t

/-- `Cycle()` of R101: the architectural state after the cycle, and every Driver call the cycle makes, in order. -/
def Arch.cycle (params : Params) (t : Arch) : Arch × List DriverCall :=
  let cell := (t.mem.readAt t.pc.toNat).toNat
  let u := t.dispatch params (cell / 16) (cell % 16)
  (u.1.advance, u.2 ++ showStatus params u.1.pc u.1.z u.1.c)

end Sys2Proof.Machine
end

