-- ==== Sys2Proof/Machine/Run.lean ====
section
/-! DEFINITION. Several steps, and the boundaries between cycles (spec/40_engine_cycle.md R90). -/

namespace Sys2Proof.Machine

/-- `k` steps. -/
def stepN : Nat → State → Host.Outcome State Fault Refusal
  | 0, s => .next s
  | k + 1, s =>
    match step s with
    | .next t => stepN k t
    | .fault r => .fault r
    | .refused r => .refused r

/-- The machine stands between two cycles: the Driver is idle, no call waits, and step 1 comes next. -/
abbrev State.betweenCycles (s : State) : Prop := s.active = none ∧ s.pending = [] ∧ s.stage = .fetch

/-- `t` is the next boundary between cycles after `s`, `k` steps later. -/
def ReachesBoundary (s : State) (k : Nat) (t : State) : Prop :=
  0 < k ∧ stepN k s = .next t ∧ t.betweenCycles ∧
    ∀ j u, 0 < j → j < k → stepN j s = .next u → ¬ u.betweenCycles

end Sys2Proof.Machine
end

