-- ==== Sys2Proof/Machine/Screen.lean ====
section
/-! DEFINITION. The reference picture of the display, for observation only (spec/46_display_formatter.md R200): not part
of CORE, and nothing of the machine reads it. -/

namespace Sys2Proof.Machine

/-- What the display shows, as far as CORE has written it: the cells written, latest first, and the cursor address where
it is known. -/
structure Picture where
  cells : List Host.Cell
  cursor : Option (BitVec 7)
deriving DecidableEq, Repr

/-- At the start of a run every cell is a space and the cursor is 0 (R200; PRESUMED, log 13). -/
def Picture.blank : Picture := ⟨[], some 0⟩

/-- The character at a display address; a cell CORE has not written holds a space. -/
def Picture.charAt (p : Picture) (addr : Nat) : Byte :=
  match p.cells.find? (fun cell => cell.1 == addr) with
  | some cell => cell.2
  | none => 0x20

/-- Where the cursor goes after a character. It is known only inside the ranges R200 speaks of, 0x00 to 0x0E and 0x4D to
0x4F; past the end of a line or of the address range it "is left undefined" (log 13). -/
def cursorAfter (cursor : BitVec 7) : Option (BitVec 7) :=
  if cursor.toNat ≤ 0x0E ∨ (0x4D ≤ cursor.toNat ∧ cursor.toNat ≤ 0x4F) then some (cursor + 1) else none

/-- The effect of one bus event on the picture (R200); no answer where R200 gives none. -/
def Picture.see (p : Picture) : BusEvent → Option Picture
  | .poll _ => some p
  | .cmd b => if b.getLsbD 7 then some { p with cursor := some (b.setWidth 7) } else none
  | .chr b =>
    match p.cursor with
    | some cursor => some ⟨(cursor.toNat, b) :: p.cells, cursorAfter cursor⟩
    | none => none

/-- The picture after a list of bus events. -/
def Picture.seeAll (p : Picture) : List BusEvent → Option Picture
  | [] => some p
  | event :: rest =>
    match p.see event with
    | some q => q.seeAll rest
    | none => none

/-- What the display shows after a run. -/
def State.picture (s : State) : Option Picture := Picture.blank.seeAll s.trace

end Sys2Proof.Machine
end

