-- ==== Sys2Proof/Safety.lean ====
section
/-! DEFINITION. The terms claims are stated in: the bus discipline, the language of the bus trace, the write trace, and
what a cycle in progress will come to. -/

namespace Sys2Proof.Machine

/-- One row of the phase table of 45_display_driver R170, with the DRV of R162. -/
structure PinRow where
  drv : DriverState
  dir : BusDir
  rs : RegSelect
  rw : ReadWrite
  e : Enable
deriving DecidableEq, Repr

/-- The pins as a state has them. -/
def State.pins (s : State) : PinRow := ⟨s.drv, s.dir, s.rs, s.rw, s.e⟩

/-- The resting levels of R161; those other than `DIR = write` are the spec's decision D6 (log 17). -/
def restingPins : PinRow := ⟨.idle, .write, .low, .write, .deasserted⟩

/-- The rows "command write" and "character write" of R170's table, for a level of E: RS is low for a command and asserted
for a character. Written from the table, not from the levels the Driver uses. -/
def writePins (call : DriverCall) (e : Enable) : PinRow :=
  match call with
  | .writeCommand _ => ⟨.writing, .write, .low, .write, e⟩
  | .writeChar _ => ⟨.writing, .write, .asserted, .write, e⟩

/-- The rows of R170's table, for a call. The levels that the source does not give are the spec's decisions D3 to D5
(log 7). -/
def phasePins (call : DriverCall) : Phase → PinRow
  | .pollSetup => ⟨.awaitingReady, .read, .low, .read, .deasserted⟩
  | .pollSample => ⟨.awaitingReady, .read, .low, .read, .asserted⟩
  | .pollEnd _ => ⟨.awaitingReady, .read, .low, .read, .deasserted⟩
  | .turnRead => ⟨.writing, .write, .low, .read, .deasserted⟩
  | .turnWrite => ⟨.writing, .write, .low, .write, .deasserted⟩
  | .setup => writePins call .deasserted
  | .pulse => writePins call .asserted
  | .writeEnd => writePins call .deasserted
  | .release => ⟨.writing, .write, .low, .write, .deasserted⟩

/-- The phases in which R170's table has the byte `b` on the data lines. -/
def Phase.holdsByte : Phase → Bool
  | .setup => true
  | .pulse => true
  | .writeEnd => true
  | .pollSetup => false
  | .pollSample => false
  | .pollEnd _ => false
  | .turnRead => false
  | .turnWrite => false
  | .release => false

/-- The pins and the data lines are as R161 and R170 have them where the Driver stands: in the phases that hold a byte,
the call in progress is a write of the very byte on the data lines. -/
def State.pinsMatch (s : State) : Prop :=
  match s.active with
  | none => s.pins = restingPins
  | some x => s.pins = phasePins x.call x.phase ∧
    (x.phase.holdsByte = true → x.call = .writeCommand s.dout ∨ x.call = .writeChar s.dout)

/-- Where a bus trace stands in `( Poll(busy)* Poll(ready) (Cmd(b) | Chr(b)) )*` (45_display_driver R171). -/
inductive TracePos where
  /-- At the start, or right after a write. -/
  | atWrite
  /-- After a busy poll. -/
  | polling
  /-- After a ready poll: the write comes next. -/
  | ready
deriving DecidableEq, Repr

/-- One event further; no answer where the language has no such event. -/
def TracePos.after : TracePos → BusEvent → Option TracePos
  | .ready, .poll _ => none
  | .ready, .cmd _ => some .atWrite
  | .ready, .chr _ => some .atWrite
  | .atWrite, .poll v => some (if busy v then .polling else .ready)
  | .polling, .poll v => some (if busy v then .polling else .ready)
  | .atWrite, .cmd _ => none
  | .atWrite, .chr _ => none
  | .polling, .cmd _ => none
  | .polling, .chr _ => none

/-- Where a trace stands, read from a position; no answer if it is no beginning of a word of the language. -/
def tracePosFrom (pos : TracePos) : List BusEvent → Option TracePos
  | [] => some pos
  | event :: rest =>
    match pos.after event with
    | some next => tracePosFrom next rest
    | none => none

/-- Where the Driver may stand for a position of the trace. -/
def TracePos.fits (pos : TracePos) : Option Transfer → Bool
  | none => pos == .atWrite
  | some ⟨_, .pollSetup⟩ => pos != .ready
  | some ⟨_, .pollSample⟩ => pos != .ready
  | some ⟨_, .pollEnd v⟩ => pos == (if busy v then .polling else .ready)
  | some ⟨_, .turnRead⟩ => pos == .ready
  | some ⟨_, .turnWrite⟩ => pos == .ready
  | some ⟨_, .setup⟩ => pos == .ready
  | some ⟨_, .pulse⟩ => pos == .ready
  | some ⟨_, .writeEnd⟩ => pos == .atWrite
  | some ⟨_, .release⟩ => pos == .atWrite

/-- The bus trace is a beginning of a word of R171's language, and the Driver stands where that beginning ends. -/
def State.traceInLanguage (s : State) : Prop :=
  ∃ pos, tracePosFrom .atWrite s.trace = some pos ∧ pos.fits s.active = true

/-- A write event, not a poll. -/
def BusEvent.isWrite : BusEvent → Bool
  | .poll _ => false
  | .cmd _ => true
  | .chr _ => true

/-- The write trace: "the trace with `Poll` events removed" (R171). -/
def writesOf (trace : List BusEvent) : List BusEvent := trace.filter BusEvent.isWrite

/-- The write event of the call has been emitted. -/
def Phase.written : Phase → Bool
  | .writeEnd => true
  | .release => true
  | .pollSetup => false
  | .pollSample => false
  | .pollEnd _ => false
  | .turnRead => false
  | .turnWrite => false
  | .setup => false
  | .pulse => false

/-- The Driver calls made whose write event is still to come, in order. -/
def State.callsLeft (s : State) : List DriverCall :=
  match s.active with
  | none => s.pending
  | some x => if x.phase.written then s.pending else x.call :: s.pending

/-- The write trace as it will be once every call made has run. -/
def State.promisedWrites (s : State) : List BusEvent := writesOf s.trace ++ s.callsLeft.map DriverCall.event

/-- What a cycle in progress comes to: the architectural state and the write trace at its end, if it ends. -/
def State.cycleResult (s : State) : Arch × List BusEvent :=
  match s.stage with
  | .fetch => (s.arch, s.promisedWrites)
  | .dispatched => (s.arch.advance, s.promisedWrites ++ (showStatus s.params s.pc s.z s.c).map DriverCall.event)
  | .refreshed => (s.arch.advance, s.promisedWrites)

/-- How many of the scripted answers are ready answers (bit 7 clear). -/
def readyAnswers (answers : List Byte) : Nat := (answers.filter (fun v => !busy v)).length

/-- The call in progress has seen its ready poll. -/
def Phase.sawReady : Phase → Bool
  | .pollSetup => false
  | .pollSample => false
  | .pollEnd v => !busy v
  | .turnRead => true
  | .turnWrite => true
  | .setup => true
  | .pulse => true
  | .writeEnd => true
  | .release => true

/-- How many ready polls the cycle in progress still needs: one for each write to come (45_display_driver R174). -/
def State.readyPollsLeft (s : State) : Nat :=
  (match s.active with
    | none => 0
    | some x => if x.phase.sawReady then 0 else 1) + s.pending.length +
  (match s.stage with
    | .dispatched => 6
    | .refreshed => 0
    | .fetch => 0)

/-- A Formatter call (46_display_formatter R193 to R196). -/
inductive FieldCall where
  | showA (v : Byte)
  | showB (v : Byte)
  | showStatus (pc : Nibble) (z c : Bool)
  | showOutput (v : Byte)
deriving DecidableEq, Repr

/-- The Driver calls of a Formatter call. -/
def FieldCall.calls (params : Params) : FieldCall → List DriverCall
  | .showA v => Machine.showA v
  | .showB v => Machine.showB v
  | .showStatus pc z c => Machine.showStatus params pc z c
  | .showOutput v => Machine.showOutput v

/-- The display address a Formatter call starts at (R198). -/
def FieldCall.place : FieldCall → Nat
  | .showA _ => 0x00
  | .showB _ => 0x05
  | .showStatus _ _ _ => 0x0A
  | .showOutput _ => 0x4D

/-- The text a Formatter call shows (R198). -/
def FieldCall.text (params : Params) : FieldCall → List Byte
  | .showA v => ascii 'A' :: ascii '=' :: hex2 v
  | .showB v => ascii 'B' :: ascii '=' :: hex2 v
  | .showStatus pc z c =>
    [ascii 'P', ascii '=', statusDigit params pc, if z then ascii 'Z' else ascii ' ', if c then ascii 'C' else ascii ' ']
  | .showOutput v => dec3 v

/-- The write trace of a list of Formatter calls (R199). -/
def fieldWrites (params : Params) (fields : List FieldCall) : List BusEvent :=
  (fields.flatMap (FieldCall.calls params)).map DriverCall.event

/-- The write trace, with the calls still to run, is that of whole Formatter calls: each field starts with its own cursor
command (R197, R168). -/
def State.wholeFields (s : State) : Prop := ∃ fields, s.promisedWrites = fieldWrites s.params fields

/-- The command bytes CORE ever sends (45_display_driver R166). -/
def commandBytes : List Byte := [0x80, 0x85, 0x8A, 0xCD]

/-- The character bytes CORE ever sends (46_display_formatter R190), `D`, `E` and `F` only with `STATUS_HEX_UPPER`. -/
def characterBytes (params : Params) : List Byte :=
  [0x20, 0x30, 0x31, 0x32, 0x33, 0x34, 0x35, 0x36, 0x37, 0x38, 0x39, 0x61, 0x62, 0x63, 0x64, 0x65, 0x66,
    0x43, 0x5A, 0x3D, 0x41, 0x42, 0x50] ++
  if params.statusHexUpper then [0x44, 0x45, 0x46] else []

end Sys2Proof.Machine
end

