-- ==== Sys2Proof/Certificates/Slice0/Obligations.lean ====
section
/-! DEFINITION. The statements for the provers. A statement is about every state unless it says otherwise; where it names
the display's answers it takes them from the state (`State.answers`), never from the free oracle. -/

open Sys2Proof Sys2Proof.Machine

/-! ## Decoding and encoding -/

/-- 30_encoding R71: `opcode = cell >> 4`, `operand = cell & 0xF`, for each of the 256 cell values. -/
def Obligations.DecodeSplitsTheCell : Prop :=
  ∀ cell : Byte,
    (decode cell).opcode = (cell >>> 4).setWidth 4 ∧ (decode cell).operand = (cell &&& 0xF).setWidth 4

/-- Decode and encode agree both ways: no bit of an encoding is dropped, and no two instructions share a cell value. -/
def Obligations.DecodeEncodeAgree : Prop :=
  (∀ i : Instr, decode (encode i) = i) ∧ (∀ cell : Byte, encode (decode cell) = cell)

/-- 30_encoding R79, the eight rows. -/
def Obligations.DecodeOfTheSourceImage : Prop :=
  decode 0x1E = .lda 14 ∧ decode 0xE0 = .out 0 ∧ decode 0x51 = .ldi 1 ∧ decode 0x2E = .add 14 ∧
    decode 0x4E = .sta 14 ∧ decode 0x60 = .jmp 0 ∧ decode 0x00 = .nop 0 ∧ decode 0x10 = .lda 0

/-- 30_encoding R74: opcodes 9 to 13 "execute exactly as opcode 0", for every operand, and no cell value traps: whatever
the cell, its instruction answers a next state. -/
def Obligations.UnmappedOpcodesRunAsNop : Prop :=
  (∀ (m n : Nibble) (s : State),
    exec (.nop9 m) s = exec (.nop n) s ∧ exec (.nop10 m) s = exec (.nop n) s ∧ exec (.nop11 m) s = exec (.nop n) s ∧
      exec (.nop12 m) s = exec (.nop n) s ∧ exec (.nop13 m) s = exec (.nop n) s) ∧
  (∀ (cell : Byte) (s : State), ∃ t, exec (decode cell) s = .next t)

/-- 30_encoding section 4 (R75): all 16 operand values of NOP, OUT and HLT behave alike. -/
def Obligations.IgnoredOperandsChangeNothing : Prop :=
  ∀ (m n : Nibble) (s : State),
    exec (.nop m) s = exec (.nop n) s ∧ exec (.out m) s = exec (.out n) s ∧ exec (.hlt m) s = exec (.hlt n) s

/-! ## Step 2 of the cycle, instruction by instruction -/

/-- 43_control R130: NOP, and R131: NOP_9 to NOP_13. Step 2 changes nothing; the status refresh comes next. -/
def Obligations.NopsChangeNothing : Prop :=
  ∀ (n : Nibble) (s : State),
    (decode (0x00 ||| n.setWidth 8) = .nop n ∧ exec (.nop n) s = .next { s with stage := .dispatched }) ∧
    (decode (0x90 ||| n.setWidth 8) = .nop9 n ∧ exec (.nop9 n) s = .next { s with stage := .dispatched }) ∧
    (decode (0xA0 ||| n.setWidth 8) = .nop10 n ∧ exec (.nop10 n) s = .next { s with stage := .dispatched }) ∧
    (decode (0xB0 ||| n.setWidth 8) = .nop11 n ∧ exec (.nop11 n) s = .next { s with stage := .dispatched }) ∧
    (decode (0xC0 ||| n.setWidth 8) = .nop12 n ∧ exec (.nop12 n) s = .next { s with stage := .dispatched }) ∧
    (decode (0xD0 ||| n.setWidth 8) = .nop13 n ∧ exec (.nop13 n) s = .next { s with stage := .dispatched })

/-- 41_load_store R110: LDA loads the cell into A, writes Z, leaves all else, and calls `showA(A)`. -/
def Obligations.LdaLoadsTheCell : Prop :=
  ∀ (n : Nibble) (s : State),
    decode (0x10 ||| n.setWidth 8) = .lda n ∧
    exec (.lda n) s = .next { s with
      a := s.memRead n
      z := decide (s.memRead n = 0)
      pending := s.pending ++ showA (s.memRead n)
      stage := .dispatched }

/-- 41_load_store R111: STA stores A in the cell the operand names; every other cell reads as before, and nothing else
changes. -/
def Obligations.StaStoresOneCell : Prop :=
  ∀ (n : Nibble) (s : State),
    decode (0x40 ||| n.setWidth 8) = .sta n ∧
    ∃ t, exec (.sta n) s = .next t ∧
      t.memRead n = s.a ∧
      (∀ other : Nibble, other ≠ n → t.memRead other = s.memRead other) ∧
      t = { s with mem := t.mem, stage := .dispatched }

/-- 41_load_store R112: LDI loads the zero-extended operand, sets Z exactly when it is 0, and calls `showA(A)`. -/
def Obligations.LdiLoadsTheOperand : Prop :=
  ∀ (n : Nibble) (s : State),
    decode (0x50 ||| n.setWidth 8) = .ldi n ∧
    exec (.ldi n) s = .next { s with
      a := BitVec.ofNat 8 n.toNat
      z := decide (n = 0)
      pending := s.pending ++ showA (BitVec.ofNat 8 n.toNat)
      stage := .dispatched }

/-- ADD (42_arithmetic): B takes the cell, A the sum modulo 256, C the carry, Z the zero test. What it draws follows the
parameter `ADD_SHOWS_A`, for either value (the spec's decision D7, log 2). -/
def Obligations.AddAddsTheCell : Prop :=
  ∀ (n : Nibble) (s : State),
    decode (0x20 ||| n.setWidth 8) = .add n ∧
    exec (.add n) s = .next { s with
      b := s.memRead n
      a := BitVec.ofNat 8 (s.a.toNat + (s.memRead n).toNat)
      c := decide (s.a.toNat + (s.memRead n).toNat > 0xFF)
      z := decide ((s.a.toNat + (s.memRead n).toNat) % 256 = 0)
      pending := s.pending ++ (showB (s.memRead n) ++
        if s.params.addShowsA then showA (BitVec.ofNat 8 (s.a.toNat + (s.memRead n).toNat)) else [])
      stage := .dispatched }

/-- SUB (42_arithmetic): B takes the cell, and the sum is that of A and the one's complement of the cell, with no carry-in.
What it draws follows the parameter `SUB_DISPLAY`, for either value (the spec's decision D8, log 2). -/
def Obligations.SubAddsTheComplement : Prop :=
  ∀ (n : Nibble) (s : State),
    decode (0x30 ||| n.setWidth 8) = .sub n ∧
    exec (.sub n) s = .next { s with
      b := s.memRead n
      a := BitVec.ofNat 8 (s.a.toNat + (255 - (s.memRead n).toNat))
      c := decide (s.a.toNat + (255 - (s.memRead n).toNat) > 0xFF)
      z := decide ((s.a.toNat + (255 - (s.memRead n).toNat)) % 256 = 0)
      pending := s.pending ++ (if s.params.subDisplay = .bThenA then
        showB (s.memRead n) ++ showA (BitVec.ofNat 8 (s.a.toNat + (255 - (s.memRead n).toNat))) else [])
      stage := .dispatched }

/-- 70_reset_and_hazards R235: SUB is one less than a subtraction, and its flags follow that result. -/
def Obligations.SubIsOneLessThanSubtraction : Prop :=
  ∀ (n : Nibble) (s : State), ∃ t, exec (.sub n) s = .next t ∧
    t.a = s.a - s.memRead n - 1 ∧
    (t.c = true ↔ s.memRead n < s.a) ∧
    (t.z = true ↔ s.a = s.memRead n + 1) ∧
    (s.a = s.memRead n → t.a = 0xFF ∧ t.c = false ∧ t.z = false)

/-- 43_control R132: JMP writes the operand to PC; step 3 shows it, and step 4 still adds one. -/
def Obligations.JmpWritesPc : Prop :=
  ∀ (n : Nibble) (s : State),
    decode (0x60 ||| n.setWidth 8) = .jmp n ∧
    ∃ t, exec (.jmp n) s = .next t ∧ t = { s with pc := n, stage := .dispatched } ∧
      t.refreshStatus.pending = s.pending ++ showStatus s.params n s.z s.c ∧
      (s.run = .running → t.refreshStatus.advance.pc = n + 1)

/-- 43_control R133: JC writes PC exactly when C is set; C is read, not cleared. -/
def Obligations.JcWritesPcOnCarry : Prop :=
  ∀ (n : Nibble) (s : State),
    decode (0x70 ||| n.setWidth 8) = .jc n ∧
    ∃ t, exec (.jc n) s = .next t ∧ t = { s with pc := if s.c = true then n else s.pc, stage := .dispatched } ∧
      (s.run = .running → t.refreshStatus.advance.pc = if s.c = true then n + 1 else s.pc + 1)

/-- 43_control R134: JZ writes PC exactly when Z, as last written, is set. -/
def Obligations.JzWritesPcOnZero : Prop :=
  ∀ (n : Nibble) (s : State),
    decode (0x80 ||| n.setWidth 8) = .jz n ∧
    ∃ t, exec (.jz n) s = .next t ∧ t = { s with pc := if s.z = true then n else s.pc, stage := .dispatched } ∧
      (s.run = .running → t.refreshStatus.advance.pc = if s.z = true then n + 1 else s.pc + 1)

/-- 44_output R150: OUT calls `showOutput(A)` and changes no register, flag or cell. Its writes are the command 0xCD and the
three characters of `dec3(A)`; step 3 adds the command 0x8A and five characters. -/
def Obligations.OutShowsTheAccumulator : Prop :=
  ∀ (n : Nibble) (s : State),
    decode (0xE0 ||| n.setWidth 8) = .out n ∧
    exec (.out n) s = .next { s with pending := s.pending ++ showOutput s.a, stage := .dispatched } ∧
    showOutput s.a = .writeCommand 0xCD :: (dec3 s.a).map .writeChar ∧ (dec3 s.a).length = 3 ∧
    ∃ text : List Byte, showStatus s.params s.pc s.z s.c = .writeCommand 0x8A :: text.map .writeChar ∧ text.length = 5

/-- 43_control R135: HLT writes RUN alone; step 3 still runs with the HLT's own address, and step 4 neither increments PC
nor delays. -/
def Obligations.HltHalts : Prop :=
  ∀ (n : Nibble) (s : State),
    decode (0xF0 ||| n.setWidth 8) = .hlt n ∧
    ∃ t, exec (.hlt n) s = .next t ∧ t = { s with run := .halted, stage := .dispatched } ∧
      t.refreshStatus.advance = { s with
        run := .halted
        pending := s.pending ++ showStatus s.params s.pc s.z s.c
        stage := .fetch }

/-- 10_state R24, the whole table, as what may change in step 2 and which instruction changes it, with the increment of step
4 that every instruction but HLT has; a cell of memory changes only where STA's operand names it, and the bus, the records,
the parameters and the environment are untouched. -/
def Obligations.OnlyTheTableIsWritten : Prop :=
  ∀ (i : Instr) (s t : State), exec i s = .next t →
    (t.a ≠ s.a → ∃ n, i = .lda n ∨ i = .add n ∨ i = .sub n ∨ i = .ldi n) ∧
    (t.b ≠ s.b → ∃ n, i = .add n ∨ i = .sub n) ∧
    (t.z ≠ s.z → ∃ n, i = .lda n ∨ i = .add n ∨ i = .sub n ∨ i = .ldi n) ∧
    (t.c ≠ s.c → ∃ n, i = .add n ∨ i = .sub n) ∧
    (∀ cell : Nibble, t.memRead cell ≠ s.memRead cell → i = .sta cell) ∧
    (t.pc ≠ s.pc → ∃ n, i = .jmp n ∨ (i = .jc n ∧ s.c = true) ∨ (i = .jz n ∧ s.z = true)) ∧
    (t.run ≠ s.run → ∃ n, i = .hlt n) ∧
    (s.run = .running → t.refreshStatus.advance.pc = if t.run = .halted then s.pc else t.pc + 1) ∧
    t.pins = s.pins ∧ t.dout = s.dout ∧ t.trace = s.trace ∧ t.delays = s.delays ∧ t.params = s.params ∧
    t.active = s.active ∧ t.answers = s.answers ∧ t.polls = s.polls ∧ t.draws = s.draws

/-- 10_state R22: Z is written by exactly LDA, ADD, SUB and LDI, each as `A == 0` for the new A; false at reset. -/
def Obligations.ZeroFlagFollowsTheNewA : Prop :=
  (∀ (i : Instr) (s t : State), exec i s = .next t →
    t.z = match i with
      | .lda _ => decide (t.a = 0)
      | .add _ => decide (t.a = 0)
      | .sub _ => decide (t.a = 0)
      | .ldi _ => decide (t.a = 0)
      | _ => s.z) ∧
  State.reset.z = false

/-- 10_state R23: C is written by exactly ADD and SUB, each as `sum > 0xFF` for its own 9-bit sum; false at reset. -/
def Obligations.CarryFlagFollowsTheSum : Prop :=
  (∀ (i : Instr) (s t : State), exec i s = .next t →
    t.c = match i with
      | .add n => decide (s.a.toNat + (s.memRead n).toNat > 0xFF)
      | .sub n => decide (s.a.toNat + (255 - (s.memRead n).toNat) > 0xFF)
      | _ => s.c) ∧
  State.reset.c = false

/-! ## Steps 1, 3 and 4, and the whole cycle -/

/-- 40_engine_cycle R91: between cycles a running machine decodes the cell at PC and runs that instruction; the fetch
cannot fail. -/
def Obligations.StepRunsTheFetchedInstruction : Prop :=
  ∀ s : State, s.betweenCycles → s.run = .running → step s = exec (decode (s.memRead s.pc)) s

/-- A word of the opcode table, placed where step fetches, is the instruction step runs (log 18). -/
def Obligations.PlacedWordIsRun : Prop :=
  ∀ (s : State) (nbits w : Nat) (i : Instr), decodeTableWord nbits w = some i →
    step (s.withFetchWord nbits w) = exec i (s.withFetchWord nbits w)

/-- 40_engine_cycle R93: once the calls of step 2 have run, step 3 calls `showStatus(PC, Z, C)` with the values step 2
left, whatever the opcode and also after HLT, and changes no architectural state. -/
def Obligations.StatusRefreshIsStepThree : Prop :=
  ∀ s : State, s.active = none → s.pending = [] → s.stage = .dispatched →
    step s = .next { s with pending := showStatus s.params s.pc s.z s.c, stage := .refreshed }

/-- 40_engine_cycle R94: once the status is drawn, step 4 increments PC modulo 16 and takes the inter-instruction delay if
the machine is still RUNNING, and does neither if it is HALTED. -/
def Obligations.AdvanceIsStepFour : Prop :=
  ∀ s : State, s.active = none → s.pending = [] → s.stage = .refreshed →
    ∃ t, step s = .next t ∧ t.stage = .fetch ∧
      (s.run = .running → t.pc.toNat = (s.pc.toNat + 1) % 16 ∧ t.delays = s.delays ++ [.tInstr]) ∧
      (s.run = .halted → t.pc = s.pc ∧ t.delays = s.delays) ∧
      t = { s with pc := t.pc, delays := t.delays, stage := .fetch }

/-- 40_engine_cycle R95: a taken jump to X resumes at X + 1 modulo 16, an untaken one at the next cell, at the next
boundary between cycles, given a ready answer for each of the six writes of the cycle. -/
def Obligations.TakenJumpResumesOnePastItsOperand : Prop :=
  ∀ (s : State) (n : Nibble), s.betweenCycles → s.run = .running → 6 ≤ readyAnswers s.answers →
    ((s.fetch = .jmp n ∨ (s.fetch = .jc n ∧ s.c = true) ∨ (s.fetch = .jz n ∧ s.z = true)) →
      ∃ k t, ReachesBoundary s k t ∧ t.run = .running ∧ t.pc.toNat = (n.toNat + 1) % 16) ∧
    (((s.fetch = .jc n ∧ s.c = false) ∨ (s.fetch = .jz n ∧ s.z = false)) →
      ∃ k t, ReachesBoundary s k t ∧ t.run = .running ∧ t.pc.toNat = (s.pc.toNat + 1) % 16)

/-- 40_engine_cycle R96: once RUN is HALTED no number of steps changes A, B, Z, C, PC, MEM or RUN, and once the halting
cycle is over nothing at all changes. -/
def Obligations.HaltedStaysFrozen : Prop :=
  (∀ (k : Nat) (s t : State), s.run = .halted → stepN k s = .next t → t.arch = s.arch) ∧
  (∀ (k : Nat) (s : State), s.run = .halted → s.betweenCycles → stepN k s = .next s)

/-- The machine's steps refine `Cycle()`: from a boundary, given one ready answer for each write the cycle makes, the next
boundary has the architectural state and exactly the writes that `Arch.cycle` gives. 40_engine_cycle R101 gives the
pseudocode for the default parameters only. For other values `Arch.cycle` is the model's reading of 42_arithmetic and
00_scope R7 (log 2, DEDUCED): with `SUB_DISPLAY = B_then_A`, SUB draws B and then A whatever `ADD_SHOWS_A`. -/
def Obligations.StepsRefineTheCycle : Prop :=
  ∀ s : State, s.betweenCycles → s.run = .running →
    (s.arch.cycle s.params).2.length ≤ readyAnswers s.answers →
    ∃ k t, ReachesBoundary s k t ∧ t.arch = (s.arch.cycle s.params).1 ∧
      writesOf t.trace = writesOf s.trace ++ (s.arch.cycle s.params).2.map DriverCall.event

/-- Inside a cycle no step, and so no wait, changes what the cycle comes to (40_engine_cycle R97, R98). -/
def Obligations.WaitingChangesNoOutcome : Prop :=
  ∀ s t : State, ¬ s.betweenCycles → step s = .next t → t.cycleResult = s.cycleResult ∧ t.params = s.params

/-- Every cycle completes if the display is ready often enough (70_reset_and_hazards R242): from inside a cycle, one ready
answer for each write still to come brings the machine to the boundary, with the outcome the cycle had. -/
def Obligations.CycleCompletesIfReady : Prop :=
  ∀ s : State, s.readyPollsLeft ≤ readyAnswers s.answers → (s.betweenCycles → s.run = .halted) →
    ∃ k t, stepN k s = .next t ∧ t.betweenCycles ∧ t.arch = s.cycleResult.1 ∧ writesOf t.trace = s.cycleResult.2

/-- How many writes each cycle makes, with the default parameters of 00_scope R7 (45_display_driver section 4). -/
def Obligations.WritesPerCycle : Prop :=
  ∀ s : State, (s.arch.cycle Params.default).2.length =
    match s.fetch with
    | .lda _ => 11
    | .ldi _ => 11
    | .add _ => 16
    | .out _ => 10
    | _ => 6

/-- A store is seen by the very next fetch (20_memory section 4): STA into the next cell is what the next cycle runs. -/
def Obligations.StoreIsSeenByTheNextFetch : Prop :=
  ∀ (s : State) (n : Nibble), s.betweenCycles → s.run = .running → s.fetch = .sta n → 6 ≤ readyAnswers s.answers →
    ∃ k t, ReachesBoundary s k t ∧ t.memRead n = s.a ∧ t.pc = s.pc + 1 ∧ (n = s.pc + 1 → t.fetch = decode s.a)

/-- 60_exceptions R210: there are no exceptions. Every step of every state answers a next state; no fault can even be
named. -/
def Obligations.EveryStepAnswers : Prop :=
  (∀ s : State, ∃ t, step s = .next t) ∧ (∀ _ : Fault, False)

/-- While a Driver call runs or waits, a step changes no architectural state: nothing the display does flows back into A,
B, Z, C, PC, MEM or RUN (20_memory section 5, 45_display_driver section 4). -/
def Obligations.TheBusWritesNoArchitecture : Prop :=
  ∀ s t : State, (s.active ≠ none ∨ s.pending ≠ []) → step s = .next t → t.arch = s.arch

/-- The write trace and the architectural state do not depend on the `BUSY` oracle (45_display_driver section 4): two
machines at the same point of a run, with whatever answers, data lines and polls so far, agree at the next boundary. -/
def Obligations.OutcomeIgnoresTheOracle : Prop :=
  ∀ (s₁ s₂ t₁ t₂ : State) (k₁ k₂ : Nat),
    s₁.arch = s₂.arch → s₁.params = s₂.params → s₁.stage = s₂.stage →
    s₁.promisedWrites = s₂.promisedWrites → (s₁.betweenCycles ↔ s₂.betweenCycles) →
    ReachesBoundary s₁ k₁ t₁ → ReachesBoundary s₂ k₂ t₂ →
    t₁.arch = t₂.arch ∧ writesOf t₁.trace = writesOf t₂.trace

/-- The parameters of 00_scope R7 are fixed for the machine: no step changes them (the model carries them in the state,
log 2). -/
def Obligations.ParametersNeverChange : Prop :=
  ∀ (k : Nat) (s t : State), stepN k s = .next t → t.params = s.params

/-! ## The Driver -/

/-- One Driver call from Idle to Idle (45_display_driver section 2): after any number of busy answers and one ready one, the
trace has a poll for each answer and then the write (a command or a character, with the call's byte), the settle delay is
taken (`T_CMD` after a command, `T_CHAR` after a character), the pins are at rest, and no architectural state has changed.
The resting levels RS low, RW write and E deasserted and the enable pulse of each poll are the spec's own decisions D3 to D6
(logs 7 and 17). The data lines are left at a free value (log 4), so `dout` and `draws` are only said to exist. -/
def Obligations.DriverCallRunsToIdle : Prop :=
  ∀ (s : State) (call : DriverCall) (rest : List DriverCall) (waits tail : List Byte) (v : Byte),
    s.active = none → s.pending = call :: rest → s.answers = waits ++ v :: tail →
    (∀ u ∈ waits, u.getLsbD 7 = true) → v.getLsbD 7 = false →
    ∃ d n, stepN (3 * waits.length + 10) s = .next { s with
      drv := .idle
      dir := .write
      rs := .low
      rw := .write
      e := .deasserted
      dout := d
      draws := n
      trace := s.trace ++ waits.map .poll ++ [.poll v, match call with
        | .writeCommand b => .cmd b
        | .writeChar b => .chr b]
      delays := s.delays ++ [match call with
        | .writeCommand _ => .tCmd
        | .writeChar _ => .tChar]
      pending := rest
      answers := tail }

/-- 45_display_driver R169: there is no timeout and no error. However many busy answers come, the Driver takes them all, and
the machine is where it was, still polling, with nothing changed but the answers taken and the polls in the trace. -/
def Obligations.BusyAnswersAreWaitedOut : Prop :=
  ∀ (s : State) (call : DriverCall) (waits rest : List Byte),
    s.active = some ⟨call, .pollSetup⟩ → s.pinsMatch → s.answers = waits ++ rest →
    (∀ u ∈ waits, u.getLsbD 7 = true) →
    stepN (3 * waits.length) s = .next { s with answers := rest, trace := s.trace ++ waits.map .poll }

/-- The moves of DRV (45_display_driver section 1): Idle to AwaitingReady when a call is begun, with DIR to read;
AwaitingReady to Writing on a sample with bit 7 clear, with DIR to write; Writing to Idle after the settle delay, `T_CMD` for
a command and `T_CHAR` for a character; no other. That Writing ends after the settle delay and not before it is the spec's
own choice (decision D5, log 7). -/
def Obligations.DriverMovesAreThoseOfTheProtocol : Prop :=
  ∀ s t : State, s.pinsMatch → step s = .next t → t.drv ≠ s.drv →
    (s.drv = .idle ∧ t.drv = .awaitingReady ∧ t.dir = .read ∧ ∃ call, s.pending = call :: t.pending ∧
      t.active = some ⟨call, .pollSetup⟩) ∨
    (s.drv = .awaitingReady ∧ t.drv = .writing ∧ t.dir = .write ∧ ∃ call v, s.active = some ⟨call, .pollEnd v⟩ ∧
      v.getLsbD 7 = false) ∨
    (s.drv = .writing ∧ t.drv = .idle ∧ ∃ call, s.active = some ⟨call, .release⟩ ∧
      t.delays = s.delays ++ [match call with
        | .writeCommand _ => .tCmd
        | .writeChar _ => .tChar])

/-- The bus-direction discipline (45_display_driver section 3), items (a) to (d), in every state whose pins match its place,
and the pins at each bus event (section 2): an event is one step's, at the end of an enable pulse; a command goes out with
RS low and a character with RS asserted, its byte on the data lines, and a poll reads with RS low and takes the next scripted
answer. Item (d) and the end of the pulse after a poll are the spec's own choice (decision D4), as is RS low in a poll
(decision D3); both are log 7. -/
def Obligations.BusDirectionDiscipline : Prop :=
  ∀ s : State, s.pinsMatch →
    (s.dir = .read ↔ s.drv = .awaitingReady) ∧
    (s.e = .asserted → s.rw = .read → s.dir = .read) ∧
    (s.e = .asserted → s.rw = .write →
      s.drv = .writing ∧ s.dir = .write ∧
        ((s.active = some ⟨.writeCommand s.dout, .pulse⟩ ∧ s.rs = .low) ∨
          (s.active = some ⟨.writeChar s.dout, .pulse⟩ ∧ s.rs = .asserted))) ∧
    (∀ t, step s = .next t → (t.rs ≠ s.rs ∨ t.rw ≠ s.rw ∨ t.dir ≠ s.dir ∨ t.dout ≠ s.dout) →
      s.e = .deasserted ∧ t.e = .deasserted) ∧
    (∀ t, step s = .next t → t.trace = s.trace ∨ ∃ event, t.trace = s.trace ++ [event]) ∧
    (∀ t b, step s = .next t → t.trace = s.trace ++ [.cmd b] →
      s.e = .asserted ∧ t.e = .deasserted ∧ s.rw = .write ∧ s.dir = .write ∧ s.rs = .low ∧ s.dout = b) ∧
    (∀ t b, step s = .next t → t.trace = s.trace ++ [.chr b] →
      s.e = .asserted ∧ t.e = .deasserted ∧ s.rw = .write ∧ s.dir = .write ∧ s.rs = .asserted ∧ s.dout = b) ∧
    (∀ t v, step s = .next t → t.trace = s.trace ++ [.poll v] →
      s.e = .asserted ∧ t.e = .deasserted ∧ s.rw = .read ∧ s.dir = .read ∧ s.rs = .low ∧
        (s.answers ≠ [] → s.answers = v :: t.answers))

/-! ## Invariants -/

/-- Memory keeps its canonical form. -/
def Obligations.MemoryFormIsKept : Prop :=
  ∀ s t : State, s.mem.wf = true → step s = .next t → t.mem.wf = true

/-- The pins and the data lines stay as the phase table of 45_display_driver R170 and the resting levels of R161 have them.
Of those levels, RS low in a poll, the lines changing only with E deasserted, the release and the end of Writing are the
spec's own decisions D3, D4 and D5 (log 7), and the resting levels other than `DIR = write` its decision D6 (log 17). -/
def Obligations.PinsStayMatched : Prop :=
  ∀ s t : State, s.pinsMatch → step s = .next t → t.pinsMatch

/-- The bus trace stays a beginning of a word of `( Poll(busy)* Poll(ready) (Cmd(b) | Chr(b)) )*` (45_display_driver section
4): a write never goes out without a ready poll right before it. -/
def Obligations.TraceStaysInTheLanguage : Prop :=
  ∀ s t : State, s.traceInLanguage → step s = .next t → t.traceInLanguage

/-- The write trace, with the calls still to run, stays that of whole Formatter calls, each of which sets the cursor first
(46_display_formatter section 2). -/
def Obligations.WholeFieldsAreWritten : Prop :=
  ∀ s t : State, s.wholeFields → step s = .next t → t.wholeFields

/-- What reset leaves meets the four invariants, for every parameter and every image, and so does the state after reset
with no image (log 1) and a later reset of any state (the spec's decision D19, log 12). That the pins match rests on the
spec's decision D6 for the Driver's reset values (R32's Driver rows, log 17). -/
def Obligations.ResetMeetsTheInvariants : Prop :=
  ∀ s : State,
    (s = State.reset ∨ (∃ params image, s = State.boot params image) ∨ ∃ (u : State) (image : Image), s = u.restart image) →
    s.mem.wf = true ∧ s.pinsMatch ∧ s.traceInLanguage ∧ s.wholeFields

/-- The only command bytes CORE sends are those of 45_display_driver R166, and the only character bytes those of
46_display_formatter R190 (ASCII by the spec's decision D11, log 9). -/
def Obligations.OnlyTheFormattersBytesAreSent : Prop :=
  ∀ s : State, s.wholeFields →
    (∀ b, BusEvent.cmd b ∈ s.trace → b ∈ commandBytes) ∧
    (∀ b, BusEvent.chr b ∈ s.trace → b ∈ characterBytes s.params)

/-! ## Reset -/

/-- 10_state R32, the Engine's rows, for every image of 16 bytes and either value of each parameter, and of a later reset of
any state, with the memory reloaded from the image whatever was stored (the spec's decision D19, log 12). The state after
reset with no image (log 1) has the same registers; of its memory nothing is said. -/
def Obligations.EngineResetValues : Prop :=
  ∀ (params : Params) (image : Image), image.wellFormed = true →
    (∀ u : State, ∀ s ∈ [State.boot params image, State.reset, u.restart image],
      s.a = 0 ∧ s.b = 0 ∧ s.z = false ∧ s.c = false ∧ s.pc = 0 ∧ s.run = .running ∧ s.trace = []) ∧
    (∀ u : State, ∀ s ∈ [State.boot params image, u.restart image], ∀ cell : Nibble,
      some (s.memRead cell) = image[cell.toNat]?)

/-- The Driver's rows of 10_state R32, which are the spec's own decision D6 (log 17), and the same of a later reset of any
state, whatever the Driver was doing (decision D19, log 12); DOUT is open there and left out. -/
def Obligations.DriverResetValues : Prop :=
  ∀ (params : Params) (image : Image),
    ∀ u : State, ∀ s ∈ [State.boot params image, State.reset, u.restart image],
      s.drv = .idle ∧ s.dir = .write ∧ s.rs = .low ∧ s.rw = .write ∧ s.e = .deasserted ∧ s.betweenCycles

/-! ## The Formatter and the picture -/

/-- 46_display_formatter R192: three cells, right-justified, padded with spaces, no leading zero: each of the 256 values,
read back from its digits, and the source's own examples. -/
def Obligations.DecimalFieldReadsBack : Prop :=
  (dec3 5 = [ascii ' ', ascii ' ', ascii '5'] ∧ dec3 42 = [ascii ' ', ascii '4', ascii '2'] ∧
    dec3 137 = [ascii '1', ascii '3', ascii '7'] ∧ dec3 0 = [ascii ' ', ascii ' ', ascii '0']) ∧
  ∀ v : Byte, ∃ h t u : Nat, h < 10 ∧ t < 10 ∧ u < 10 ∧ v.toNat = 100 * h + 10 * t + u ∧
    dec3 v = [if h = 0 then ascii ' ' else decDigit h, if h = 0 ∧ t = 0 then ascii ' ' else decDigit t, decDigit u]

/-- The write traces of the four Formatter calls, byte for byte (46_display_formatter section 2; ASCII by decision D11, log
9). -/
def Obligations.FormatterWriteTraces : Prop :=
  (∀ v : Byte, (showA v).map DriverCall.event =
    [.cmd 0x80, .chr 0x41, .chr 0x3D, .chr (hexDigit (v.extractLsb' 4 4)), .chr (hexDigit (v.extractLsb' 0 4))]) ∧
  (∀ v : Byte, (showB v).map DriverCall.event =
    [.cmd 0x85, .chr 0x42, .chr 0x3D, .chr (hexDigit (v.extractLsb' 4 4)), .chr (hexDigit (v.extractLsb' 0 4))]) ∧
  (∀ (params : Params) (pc : Nibble) (z c : Bool), (showStatus params pc z c).map DriverCall.event =
    [.cmd 0x8A, .chr 0x50, .chr 0x3D, .chr (if params.statusHexUpper then hexDigitUpper pc else hexDigit pc),
      .chr (if z then 0x5A else 0x20), .chr (if c then 0x43 else 0x20)]) ∧
  (∀ v : Byte, (showOutput v).map DriverCall.event = .cmd 0xCD :: (dec3 v).map BusEvent.chr) ∧
  (∀ n : Nibble, hexDigit n = (if n.toNat ≤ 9 then 0x30 + n.setWidth 8 else 0x57 + n.setWidth 8) ∧
    hexDigitUpper n = (if n.toNat ≤ 9 then 0x30 + n.setWidth 8 else 0x37 + n.setWidth 8))

/-- The screen layout (46_display_formatter section 2): a Formatter call puts its text at its own addresses and changes no
other cell of the picture, wherever the cursor was. That the picture is defined rests on the range in which `cursorAfter` takes the
cursor as known, the model's own choice (log 13, DESIGN CHOICE). -/
def Obligations.FieldsAreDrawnAtTheirPlaces : Prop :=
  ∀ (params : Params) (field : FieldCall) (p : Picture),
    ∃ q, p.seeAll ((field.calls params).map DriverCall.event) = some q ∧
      (∀ k < (field.text params).length, some (q.charAt (field.place + k)) = (field.text params)[k]?) ∧
      (∀ addr, (addr < field.place ∨ field.place + (field.text params).length ≤ addr) → q.charAt addr = p.charAt addr)

/-- The picture is always defined: CORE never writes a character where the model leaves the cursor open. Where that is, is the
range of `cursorAfter`, the model's own choice (log 13, DESIGN CHOICE): 46_display_formatter R200 leaves the cursor past the
end of a line or of the address range undefined and draws no such border itself. -/
def Obligations.ThePictureIsAlwaysDefined : Prop :=
  ∀ s : State, s.wholeFields → ∃ q, s.picture = some q
end

