-- ==== Sys2Proof/Laws/State.lean ====
section
/-! SUPPORT. One lemma per field per update of the state, so that no later proof unfolds a record update. -/

namespace Sys2Proof.Machine

@[simp] theorem State.writeA_a (s : State) (v : Byte) : (s.writeA v).a = v := rfl
@[simp] theorem State.writeA_b (s : State) (v : Byte) : (s.writeA v).b = s.b := rfl
@[simp] theorem State.writeA_z (s : State) (v : Byte) : (s.writeA v).z = s.z := rfl
@[simp] theorem State.writeA_c (s : State) (v : Byte) : (s.writeA v).c = s.c := rfl
@[simp] theorem State.writeA_pc (s : State) (v : Byte) : (s.writeA v).pc = s.pc := rfl
@[simp] theorem State.writeA_mem (s : State) (v : Byte) : (s.writeA v).mem = s.mem := rfl
@[simp] theorem State.writeA_run (s : State) (v : Byte) : (s.writeA v).run = s.run := rfl
@[simp] theorem State.writeA_drv (s : State) (v : Byte) : (s.writeA v).drv = s.drv := rfl
@[simp] theorem State.writeA_dir (s : State) (v : Byte) : (s.writeA v).dir = s.dir := rfl
@[simp] theorem State.writeA_rs (s : State) (v : Byte) : (s.writeA v).rs = s.rs := rfl
@[simp] theorem State.writeA_rw (s : State) (v : Byte) : (s.writeA v).rw = s.rw := rfl
@[simp] theorem State.writeA_e (s : State) (v : Byte) : (s.writeA v).e = s.e := rfl
@[simp] theorem State.writeA_dout (s : State) (v : Byte) : (s.writeA v).dout = s.dout := rfl
@[simp] theorem State.writeA_trace (s : State) (v : Byte) : (s.writeA v).trace = s.trace := rfl
@[simp] theorem State.writeA_delays (s : State) (v : Byte) : (s.writeA v).delays = s.delays := rfl
@[simp] theorem State.writeA_params (s : State) (v : Byte) : (s.writeA v).params = s.params := rfl
@[simp] theorem State.writeA_stage (s : State) (v : Byte) : (s.writeA v).stage = s.stage := rfl
@[simp] theorem State.writeA_pending (s : State) (v : Byte) : (s.writeA v).pending = s.pending := rfl
@[simp] theorem State.writeA_active (s : State) (v : Byte) : (s.writeA v).active = s.active := rfl
@[simp] theorem State.writeA_answers (s : State) (v : Byte) : (s.writeA v).answers = s.answers := rfl
@[simp] theorem State.writeA_polls (s : State) (v : Byte) : (s.writeA v).polls = s.polls := rfl
@[simp] theorem State.writeA_draws (s : State) (v : Byte) : (s.writeA v).draws = s.draws := rfl

@[simp] theorem State.writeB_a (s : State) (v : Byte) : (s.writeB v).a = s.a := rfl
@[simp] theorem State.writeB_b (s : State) (v : Byte) : (s.writeB v).b = v := rfl
@[simp] theorem State.writeB_z (s : State) (v : Byte) : (s.writeB v).z = s.z := rfl
@[simp] theorem State.writeB_c (s : State) (v : Byte) : (s.writeB v).c = s.c := rfl
@[simp] theorem State.writeB_pc (s : State) (v : Byte) : (s.writeB v).pc = s.pc := rfl
@[simp] theorem State.writeB_mem (s : State) (v : Byte) : (s.writeB v).mem = s.mem := rfl
@[simp] theorem State.writeB_run (s : State) (v : Byte) : (s.writeB v).run = s.run := rfl
@[simp] theorem State.writeB_drv (s : State) (v : Byte) : (s.writeB v).drv = s.drv := rfl
@[simp] theorem State.writeB_dir (s : State) (v : Byte) : (s.writeB v).dir = s.dir := rfl
@[simp] theorem State.writeB_rs (s : State) (v : Byte) : (s.writeB v).rs = s.rs := rfl
@[simp] theorem State.writeB_rw (s : State) (v : Byte) : (s.writeB v).rw = s.rw := rfl
@[simp] theorem State.writeB_e (s : State) (v : Byte) : (s.writeB v).e = s.e := rfl
@[simp] theorem State.writeB_dout (s : State) (v : Byte) : (s.writeB v).dout = s.dout := rfl
@[simp] theorem State.writeB_trace (s : State) (v : Byte) : (s.writeB v).trace = s.trace := rfl
@[simp] theorem State.writeB_delays (s : State) (v : Byte) : (s.writeB v).delays = s.delays := rfl
@[simp] theorem State.writeB_params (s : State) (v : Byte) : (s.writeB v).params = s.params := rfl
@[simp] theorem State.writeB_stage (s : State) (v : Byte) : (s.writeB v).stage = s.stage := rfl
@[simp] theorem State.writeB_pending (s : State) (v : Byte) : (s.writeB v).pending = s.pending := rfl
@[simp] theorem State.writeB_active (s : State) (v : Byte) : (s.writeB v).active = s.active := rfl
@[simp] theorem State.writeB_answers (s : State) (v : Byte) : (s.writeB v).answers = s.answers := rfl
@[simp] theorem State.writeB_polls (s : State) (v : Byte) : (s.writeB v).polls = s.polls := rfl
@[simp] theorem State.writeB_draws (s : State) (v : Byte) : (s.writeB v).draws = s.draws := rfl

@[simp] theorem State.writeZ_a (s : State) (v : Bool) : (s.writeZ v).a = s.a := rfl
@[simp] theorem State.writeZ_b (s : State) (v : Bool) : (s.writeZ v).b = s.b := rfl
@[simp] theorem State.writeZ_z (s : State) (v : Bool) : (s.writeZ v).z = v := rfl
@[simp] theorem State.writeZ_c (s : State) (v : Bool) : (s.writeZ v).c = s.c := rfl
@[simp] theorem State.writeZ_pc (s : State) (v : Bool) : (s.writeZ v).pc = s.pc := rfl
@[simp] theorem State.writeZ_mem (s : State) (v : Bool) : (s.writeZ v).mem = s.mem := rfl
@[simp] theorem State.writeZ_run (s : State) (v : Bool) : (s.writeZ v).run = s.run := rfl
@[simp] theorem State.writeZ_drv (s : State) (v : Bool) : (s.writeZ v).drv = s.drv := rfl
@[simp] theorem State.writeZ_dir (s : State) (v : Bool) : (s.writeZ v).dir = s.dir := rfl
@[simp] theorem State.writeZ_rs (s : State) (v : Bool) : (s.writeZ v).rs = s.rs := rfl
@[simp] theorem State.writeZ_rw (s : State) (v : Bool) : (s.writeZ v).rw = s.rw := rfl
@[simp] theorem State.writeZ_e (s : State) (v : Bool) : (s.writeZ v).e = s.e := rfl
@[simp] theorem State.writeZ_dout (s : State) (v : Bool) : (s.writeZ v).dout = s.dout := rfl
@[simp] theorem State.writeZ_trace (s : State) (v : Bool) : (s.writeZ v).trace = s.trace := rfl
@[simp] theorem State.writeZ_delays (s : State) (v : Bool) : (s.writeZ v).delays = s.delays := rfl
@[simp] theorem State.writeZ_params (s : State) (v : Bool) : (s.writeZ v).params = s.params := rfl
@[simp] theorem State.writeZ_stage (s : State) (v : Bool) : (s.writeZ v).stage = s.stage := rfl
@[simp] theorem State.writeZ_pending (s : State) (v : Bool) : (s.writeZ v).pending = s.pending := rfl
@[simp] theorem State.writeZ_active (s : State) (v : Bool) : (s.writeZ v).active = s.active := rfl
@[simp] theorem State.writeZ_answers (s : State) (v : Bool) : (s.writeZ v).answers = s.answers := rfl
@[simp] theorem State.writeZ_polls (s : State) (v : Bool) : (s.writeZ v).polls = s.polls := rfl
@[simp] theorem State.writeZ_draws (s : State) (v : Bool) : (s.writeZ v).draws = s.draws := rfl

@[simp] theorem State.writeC_a (s : State) (v : Bool) : (s.writeC v).a = s.a := rfl
@[simp] theorem State.writeC_b (s : State) (v : Bool) : (s.writeC v).b = s.b := rfl
@[simp] theorem State.writeC_z (s : State) (v : Bool) : (s.writeC v).z = s.z := rfl
@[simp] theorem State.writeC_c (s : State) (v : Bool) : (s.writeC v).c = v := rfl
@[simp] theorem State.writeC_pc (s : State) (v : Bool) : (s.writeC v).pc = s.pc := rfl
@[simp] theorem State.writeC_mem (s : State) (v : Bool) : (s.writeC v).mem = s.mem := rfl
@[simp] theorem State.writeC_run (s : State) (v : Bool) : (s.writeC v).run = s.run := rfl
@[simp] theorem State.writeC_drv (s : State) (v : Bool) : (s.writeC v).drv = s.drv := rfl
@[simp] theorem State.writeC_dir (s : State) (v : Bool) : (s.writeC v).dir = s.dir := rfl
@[simp] theorem State.writeC_rs (s : State) (v : Bool) : (s.writeC v).rs = s.rs := rfl
@[simp] theorem State.writeC_rw (s : State) (v : Bool) : (s.writeC v).rw = s.rw := rfl
@[simp] theorem State.writeC_e (s : State) (v : Bool) : (s.writeC v).e = s.e := rfl
@[simp] theorem State.writeC_dout (s : State) (v : Bool) : (s.writeC v).dout = s.dout := rfl
@[simp] theorem State.writeC_trace (s : State) (v : Bool) : (s.writeC v).trace = s.trace := rfl
@[simp] theorem State.writeC_delays (s : State) (v : Bool) : (s.writeC v).delays = s.delays := rfl
@[simp] theorem State.writeC_params (s : State) (v : Bool) : (s.writeC v).params = s.params := rfl
@[simp] theorem State.writeC_stage (s : State) (v : Bool) : (s.writeC v).stage = s.stage := rfl
@[simp] theorem State.writeC_pending (s : State) (v : Bool) : (s.writeC v).pending = s.pending := rfl
@[simp] theorem State.writeC_active (s : State) (v : Bool) : (s.writeC v).active = s.active := rfl
@[simp] theorem State.writeC_answers (s : State) (v : Bool) : (s.writeC v).answers = s.answers := rfl
@[simp] theorem State.writeC_polls (s : State) (v : Bool) : (s.writeC v).polls = s.polls := rfl
@[simp] theorem State.writeC_draws (s : State) (v : Bool) : (s.writeC v).draws = s.draws := rfl

@[simp] theorem State.writePc_a (s : State) (v : Nibble) : (s.writePc v).a = s.a := rfl
@[simp] theorem State.writePc_b (s : State) (v : Nibble) : (s.writePc v).b = s.b := rfl
@[simp] theorem State.writePc_z (s : State) (v : Nibble) : (s.writePc v).z = s.z := rfl
@[simp] theorem State.writePc_c (s : State) (v : Nibble) : (s.writePc v).c = s.c := rfl
@[simp] theorem State.writePc_pc (s : State) (v : Nibble) : (s.writePc v).pc = v := rfl
@[simp] theorem State.writePc_mem (s : State) (v : Nibble) : (s.writePc v).mem = s.mem := rfl
@[simp] theorem State.writePc_run (s : State) (v : Nibble) : (s.writePc v).run = s.run := rfl
@[simp] theorem State.writePc_drv (s : State) (v : Nibble) : (s.writePc v).drv = s.drv := rfl
@[simp] theorem State.writePc_dir (s : State) (v : Nibble) : (s.writePc v).dir = s.dir := rfl
@[simp] theorem State.writePc_rs (s : State) (v : Nibble) : (s.writePc v).rs = s.rs := rfl
@[simp] theorem State.writePc_rw (s : State) (v : Nibble) : (s.writePc v).rw = s.rw := rfl
@[simp] theorem State.writePc_e (s : State) (v : Nibble) : (s.writePc v).e = s.e := rfl
@[simp] theorem State.writePc_dout (s : State) (v : Nibble) : (s.writePc v).dout = s.dout := rfl
@[simp] theorem State.writePc_trace (s : State) (v : Nibble) : (s.writePc v).trace = s.trace := rfl
@[simp] theorem State.writePc_delays (s : State) (v : Nibble) : (s.writePc v).delays = s.delays := rfl
@[simp] theorem State.writePc_params (s : State) (v : Nibble) : (s.writePc v).params = s.params := rfl
@[simp] theorem State.writePc_stage (s : State) (v : Nibble) : (s.writePc v).stage = s.stage := rfl
@[simp] theorem State.writePc_pending (s : State) (v : Nibble) : (s.writePc v).pending = s.pending := rfl
@[simp] theorem State.writePc_active (s : State) (v : Nibble) : (s.writePc v).active = s.active := rfl
@[simp] theorem State.writePc_answers (s : State) (v : Nibble) : (s.writePc v).answers = s.answers := rfl
@[simp] theorem State.writePc_polls (s : State) (v : Nibble) : (s.writePc v).polls = s.polls := rfl
@[simp] theorem State.writePc_draws (s : State) (v : Nibble) : (s.writePc v).draws = s.draws := rfl

@[simp] theorem State.memWrite_a (s : State) (n : Nibble) (v : Byte) : (s.memWrite n v).a = s.a := rfl
@[simp] theorem State.memWrite_b (s : State) (n : Nibble) (v : Byte) : (s.memWrite n v).b = s.b := rfl
@[simp] theorem State.memWrite_z (s : State) (n : Nibble) (v : Byte) : (s.memWrite n v).z = s.z := rfl
@[simp] theorem State.memWrite_c (s : State) (n : Nibble) (v : Byte) : (s.memWrite n v).c = s.c := rfl
@[simp] theorem State.memWrite_pc (s : State) (n : Nibble) (v : Byte) : (s.memWrite n v).pc = s.pc := rfl
@[simp] theorem State.memWrite_mem (s : State) (n : Nibble) (v : Byte) : (s.memWrite n v).mem = s.mem.writeAt n.toNat v := rfl
@[simp] theorem State.memWrite_run (s : State) (n : Nibble) (v : Byte) : (s.memWrite n v).run = s.run := rfl
@[simp] theorem State.memWrite_drv (s : State) (n : Nibble) (v : Byte) : (s.memWrite n v).drv = s.drv := rfl
@[simp] theorem State.memWrite_dir (s : State) (n : Nibble) (v : Byte) : (s.memWrite n v).dir = s.dir := rfl
@[simp] theorem State.memWrite_rs (s : State) (n : Nibble) (v : Byte) : (s.memWrite n v).rs = s.rs := rfl
@[simp] theorem State.memWrite_rw (s : State) (n : Nibble) (v : Byte) : (s.memWrite n v).rw = s.rw := rfl
@[simp] theorem State.memWrite_e (s : State) (n : Nibble) (v : Byte) : (s.memWrite n v).e = s.e := rfl
@[simp] theorem State.memWrite_dout (s : State) (n : Nibble) (v : Byte) : (s.memWrite n v).dout = s.dout := rfl
@[simp] theorem State.memWrite_trace (s : State) (n : Nibble) (v : Byte) : (s.memWrite n v).trace = s.trace := rfl
@[simp] theorem State.memWrite_delays (s : State) (n : Nibble) (v : Byte) : (s.memWrite n v).delays = s.delays := rfl
@[simp] theorem State.memWrite_params (s : State) (n : Nibble) (v : Byte) : (s.memWrite n v).params = s.params := rfl
@[simp] theorem State.memWrite_stage (s : State) (n : Nibble) (v : Byte) : (s.memWrite n v).stage = s.stage := rfl
@[simp] theorem State.memWrite_pending (s : State) (n : Nibble) (v : Byte) : (s.memWrite n v).pending = s.pending := rfl
@[simp] theorem State.memWrite_active (s : State) (n : Nibble) (v : Byte) : (s.memWrite n v).active = s.active := rfl
@[simp] theorem State.memWrite_answers (s : State) (n : Nibble) (v : Byte) : (s.memWrite n v).answers = s.answers := rfl
@[simp] theorem State.memWrite_polls (s : State) (n : Nibble) (v : Byte) : (s.memWrite n v).polls = s.polls := rfl
@[simp] theorem State.memWrite_draws (s : State) (n : Nibble) (v : Byte) : (s.memWrite n v).draws = s.draws := rfl

@[simp] theorem State.halt_a (s : State) : s.halt.a = s.a := rfl
@[simp] theorem State.halt_b (s : State) : s.halt.b = s.b := rfl
@[simp] theorem State.halt_z (s : State) : s.halt.z = s.z := rfl
@[simp] theorem State.halt_c (s : State) : s.halt.c = s.c := rfl
@[simp] theorem State.halt_pc (s : State) : s.halt.pc = s.pc := rfl
@[simp] theorem State.halt_mem (s : State) : s.halt.mem = s.mem := rfl
@[simp] theorem State.halt_run (s : State) : s.halt.run = .halted := rfl
@[simp] theorem State.halt_drv (s : State) : s.halt.drv = s.drv := rfl
@[simp] theorem State.halt_dir (s : State) : s.halt.dir = s.dir := rfl
@[simp] theorem State.halt_rs (s : State) : s.halt.rs = s.rs := rfl
@[simp] theorem State.halt_rw (s : State) : s.halt.rw = s.rw := rfl
@[simp] theorem State.halt_e (s : State) : s.halt.e = s.e := rfl
@[simp] theorem State.halt_dout (s : State) : s.halt.dout = s.dout := rfl
@[simp] theorem State.halt_trace (s : State) : s.halt.trace = s.trace := rfl
@[simp] theorem State.halt_delays (s : State) : s.halt.delays = s.delays := rfl
@[simp] theorem State.halt_params (s : State) : s.halt.params = s.params := rfl
@[simp] theorem State.halt_stage (s : State) : s.halt.stage = s.stage := rfl
@[simp] theorem State.halt_pending (s : State) : s.halt.pending = s.pending := rfl
@[simp] theorem State.halt_active (s : State) : s.halt.active = s.active := rfl
@[simp] theorem State.halt_answers (s : State) : s.halt.answers = s.answers := rfl
@[simp] theorem State.halt_polls (s : State) : s.halt.polls = s.polls := rfl
@[simp] theorem State.halt_draws (s : State) : s.halt.draws = s.draws := rfl

@[simp] theorem State.dispatched_a (s : State) (cs : List DriverCall) : (s.dispatched cs).a = s.a := rfl
@[simp] theorem State.dispatched_b (s : State) (cs : List DriverCall) : (s.dispatched cs).b = s.b := rfl
@[simp] theorem State.dispatched_z (s : State) (cs : List DriverCall) : (s.dispatched cs).z = s.z := rfl
@[simp] theorem State.dispatched_c (s : State) (cs : List DriverCall) : (s.dispatched cs).c = s.c := rfl
@[simp] theorem State.dispatched_pc (s : State) (cs : List DriverCall) : (s.dispatched cs).pc = s.pc := rfl
@[simp] theorem State.dispatched_mem (s : State) (cs : List DriverCall) : (s.dispatched cs).mem = s.mem := rfl
@[simp] theorem State.dispatched_run (s : State) (cs : List DriverCall) : (s.dispatched cs).run = s.run := rfl
@[simp] theorem State.dispatched_drv (s : State) (cs : List DriverCall) : (s.dispatched cs).drv = s.drv := rfl
@[simp] theorem State.dispatched_dir (s : State) (cs : List DriverCall) : (s.dispatched cs).dir = s.dir := rfl
@[simp] theorem State.dispatched_rs (s : State) (cs : List DriverCall) : (s.dispatched cs).rs = s.rs := rfl
@[simp] theorem State.dispatched_rw (s : State) (cs : List DriverCall) : (s.dispatched cs).rw = s.rw := rfl
@[simp] theorem State.dispatched_e (s : State) (cs : List DriverCall) : (s.dispatched cs).e = s.e := rfl
@[simp] theorem State.dispatched_dout (s : State) (cs : List DriverCall) : (s.dispatched cs).dout = s.dout := rfl
@[simp] theorem State.dispatched_trace (s : State) (cs : List DriverCall) : (s.dispatched cs).trace = s.trace := rfl
@[simp] theorem State.dispatched_delays (s : State) (cs : List DriverCall) : (s.dispatched cs).delays = s.delays := rfl
@[simp] theorem State.dispatched_params (s : State) (cs : List DriverCall) : (s.dispatched cs).params = s.params := rfl
@[simp] theorem State.dispatched_stage (s : State) (cs : List DriverCall) : (s.dispatched cs).stage = .dispatched := rfl
@[simp] theorem State.dispatched_pending (s : State) (cs : List DriverCall) : (s.dispatched cs).pending = s.pending ++ cs := rfl
@[simp] theorem State.dispatched_active (s : State) (cs : List DriverCall) : (s.dispatched cs).active = s.active := rfl
@[simp] theorem State.dispatched_answers (s : State) (cs : List DriverCall) : (s.dispatched cs).answers = s.answers := rfl
@[simp] theorem State.dispatched_polls (s : State) (cs : List DriverCall) : (s.dispatched cs).polls = s.polls := rfl
@[simp] theorem State.dispatched_draws (s : State) (cs : List DriverCall) : (s.dispatched cs).draws = s.draws := rfl

@[simp] theorem State.loadA_a (s : State) (v : Byte) : (s.loadA v).a = v := rfl
@[simp] theorem State.loadA_b (s : State) (v : Byte) : (s.loadA v).b = s.b := rfl
@[simp] theorem State.loadA_z (s : State) (v : Byte) : (s.loadA v).z = zeroFlag v := rfl
@[simp] theorem State.loadA_c (s : State) (v : Byte) : (s.loadA v).c = s.c := rfl
@[simp] theorem State.loadA_pc (s : State) (v : Byte) : (s.loadA v).pc = s.pc := rfl
@[simp] theorem State.loadA_mem (s : State) (v : Byte) : (s.loadA v).mem = s.mem := rfl
@[simp] theorem State.loadA_run (s : State) (v : Byte) : (s.loadA v).run = s.run := rfl
@[simp] theorem State.loadA_drv (s : State) (v : Byte) : (s.loadA v).drv = s.drv := rfl
@[simp] theorem State.loadA_dir (s : State) (v : Byte) : (s.loadA v).dir = s.dir := rfl
@[simp] theorem State.loadA_rs (s : State) (v : Byte) : (s.loadA v).rs = s.rs := rfl
@[simp] theorem State.loadA_rw (s : State) (v : Byte) : (s.loadA v).rw = s.rw := rfl
@[simp] theorem State.loadA_e (s : State) (v : Byte) : (s.loadA v).e = s.e := rfl
@[simp] theorem State.loadA_dout (s : State) (v : Byte) : (s.loadA v).dout = s.dout := rfl
@[simp] theorem State.loadA_trace (s : State) (v : Byte) : (s.loadA v).trace = s.trace := rfl
@[simp] theorem State.loadA_delays (s : State) (v : Byte) : (s.loadA v).delays = s.delays := rfl
@[simp] theorem State.loadA_params (s : State) (v : Byte) : (s.loadA v).params = s.params := rfl
@[simp] theorem State.loadA_stage (s : State) (v : Byte) : (s.loadA v).stage = s.stage := rfl
@[simp] theorem State.loadA_pending (s : State) (v : Byte) : (s.loadA v).pending = s.pending := rfl
@[simp] theorem State.loadA_active (s : State) (v : Byte) : (s.loadA v).active = s.active := rfl
@[simp] theorem State.loadA_answers (s : State) (v : Byte) : (s.loadA v).answers = s.answers := rfl
@[simp] theorem State.loadA_polls (s : State) (v : Byte) : (s.loadA v).polls = s.polls := rfl
@[simp] theorem State.loadA_draws (s : State) (v : Byte) : (s.loadA v).draws = s.draws := rfl

@[simp] theorem State.writeSum_a (s : State) (m : BitVec 9) : (s.writeSum m).a = sumResult m := rfl
@[simp] theorem State.writeSum_b (s : State) (m : BitVec 9) : (s.writeSum m).b = s.b := rfl
@[simp] theorem State.writeSum_z (s : State) (m : BitVec 9) : (s.writeSum m).z = zeroFlag (sumResult m) := rfl
@[simp] theorem State.writeSum_c (s : State) (m : BitVec 9) : (s.writeSum m).c = carryFlag m := rfl
@[simp] theorem State.writeSum_pc (s : State) (m : BitVec 9) : (s.writeSum m).pc = s.pc := rfl
@[simp] theorem State.writeSum_mem (s : State) (m : BitVec 9) : (s.writeSum m).mem = s.mem := rfl
@[simp] theorem State.writeSum_run (s : State) (m : BitVec 9) : (s.writeSum m).run = s.run := rfl
@[simp] theorem State.writeSum_drv (s : State) (m : BitVec 9) : (s.writeSum m).drv = s.drv := rfl
@[simp] theorem State.writeSum_dir (s : State) (m : BitVec 9) : (s.writeSum m).dir = s.dir := rfl
@[simp] theorem State.writeSum_rs (s : State) (m : BitVec 9) : (s.writeSum m).rs = s.rs := rfl
@[simp] theorem State.writeSum_rw (s : State) (m : BitVec 9) : (s.writeSum m).rw = s.rw := rfl
@[simp] theorem State.writeSum_e (s : State) (m : BitVec 9) : (s.writeSum m).e = s.e := rfl
@[simp] theorem State.writeSum_dout (s : State) (m : BitVec 9) : (s.writeSum m).dout = s.dout := rfl
@[simp] theorem State.writeSum_trace (s : State) (m : BitVec 9) : (s.writeSum m).trace = s.trace := rfl
@[simp] theorem State.writeSum_delays (s : State) (m : BitVec 9) : (s.writeSum m).delays = s.delays := rfl
@[simp] theorem State.writeSum_params (s : State) (m : BitVec 9) : (s.writeSum m).params = s.params := rfl
@[simp] theorem State.writeSum_stage (s : State) (m : BitVec 9) : (s.writeSum m).stage = s.stage := rfl
@[simp] theorem State.writeSum_pending (s : State) (m : BitVec 9) : (s.writeSum m).pending = s.pending := rfl
@[simp] theorem State.writeSum_active (s : State) (m : BitVec 9) : (s.writeSum m).active = s.active := rfl
@[simp] theorem State.writeSum_answers (s : State) (m : BitVec 9) : (s.writeSum m).answers = s.answers := rfl
@[simp] theorem State.writeSum_polls (s : State) (m : BitVec 9) : (s.writeSum m).polls = s.polls := rfl
@[simp] theorem State.writeSum_draws (s : State) (m : BitVec 9) : (s.writeSum m).draws = s.draws := rfl

@[simp] theorem State.emit_a (s : State) (ev : BusEvent) : (s.emit ev).a = s.a := rfl
@[simp] theorem State.emit_b (s : State) (ev : BusEvent) : (s.emit ev).b = s.b := rfl
@[simp] theorem State.emit_z (s : State) (ev : BusEvent) : (s.emit ev).z = s.z := rfl
@[simp] theorem State.emit_c (s : State) (ev : BusEvent) : (s.emit ev).c = s.c := rfl
@[simp] theorem State.emit_pc (s : State) (ev : BusEvent) : (s.emit ev).pc = s.pc := rfl
@[simp] theorem State.emit_mem (s : State) (ev : BusEvent) : (s.emit ev).mem = s.mem := rfl
@[simp] theorem State.emit_run (s : State) (ev : BusEvent) : (s.emit ev).run = s.run := rfl
@[simp] theorem State.emit_drv (s : State) (ev : BusEvent) : (s.emit ev).drv = s.drv := rfl
@[simp] theorem State.emit_dir (s : State) (ev : BusEvent) : (s.emit ev).dir = s.dir := rfl
@[simp] theorem State.emit_rs (s : State) (ev : BusEvent) : (s.emit ev).rs = s.rs := rfl
@[simp] theorem State.emit_rw (s : State) (ev : BusEvent) : (s.emit ev).rw = s.rw := rfl
@[simp] theorem State.emit_e (s : State) (ev : BusEvent) : (s.emit ev).e = s.e := rfl
@[simp] theorem State.emit_dout (s : State) (ev : BusEvent) : (s.emit ev).dout = s.dout := rfl
@[simp] theorem State.emit_trace (s : State) (ev : BusEvent) : (s.emit ev).trace = s.trace ++ [ev] := rfl
@[simp] theorem State.emit_delays (s : State) (ev : BusEvent) : (s.emit ev).delays = s.delays := rfl
@[simp] theorem State.emit_params (s : State) (ev : BusEvent) : (s.emit ev).params = s.params := rfl
@[simp] theorem State.emit_stage (s : State) (ev : BusEvent) : (s.emit ev).stage = s.stage := rfl
@[simp] theorem State.emit_pending (s : State) (ev : BusEvent) : (s.emit ev).pending = s.pending := rfl
@[simp] theorem State.emit_active (s : State) (ev : BusEvent) : (s.emit ev).active = s.active := rfl
@[simp] theorem State.emit_answers (s : State) (ev : BusEvent) : (s.emit ev).answers = s.answers := rfl
@[simp] theorem State.emit_polls (s : State) (ev : BusEvent) : (s.emit ev).polls = s.polls := rfl
@[simp] theorem State.emit_draws (s : State) (ev : BusEvent) : (s.emit ev).draws = s.draws := rfl

@[simp] theorem State.delay_a (s : State) (d : Delay) : (s.delay d).a = s.a := rfl
@[simp] theorem State.delay_b (s : State) (d : Delay) : (s.delay d).b = s.b := rfl
@[simp] theorem State.delay_z (s : State) (d : Delay) : (s.delay d).z = s.z := rfl
@[simp] theorem State.delay_c (s : State) (d : Delay) : (s.delay d).c = s.c := rfl
@[simp] theorem State.delay_pc (s : State) (d : Delay) : (s.delay d).pc = s.pc := rfl
@[simp] theorem State.delay_mem (s : State) (d : Delay) : (s.delay d).mem = s.mem := rfl
@[simp] theorem State.delay_run (s : State) (d : Delay) : (s.delay d).run = s.run := rfl
@[simp] theorem State.delay_drv (s : State) (d : Delay) : (s.delay d).drv = s.drv := rfl
@[simp] theorem State.delay_dir (s : State) (d : Delay) : (s.delay d).dir = s.dir := rfl
@[simp] theorem State.delay_rs (s : State) (d : Delay) : (s.delay d).rs = s.rs := rfl
@[simp] theorem State.delay_rw (s : State) (d : Delay) : (s.delay d).rw = s.rw := rfl
@[simp] theorem State.delay_e (s : State) (d : Delay) : (s.delay d).e = s.e := rfl
@[simp] theorem State.delay_dout (s : State) (d : Delay) : (s.delay d).dout = s.dout := rfl
@[simp] theorem State.delay_trace (s : State) (d : Delay) : (s.delay d).trace = s.trace := rfl
@[simp] theorem State.delay_delays (s : State) (d : Delay) : (s.delay d).delays = s.delays ++ [d] := rfl
@[simp] theorem State.delay_params (s : State) (d : Delay) : (s.delay d).params = s.params := rfl
@[simp] theorem State.delay_stage (s : State) (d : Delay) : (s.delay d).stage = s.stage := rfl
@[simp] theorem State.delay_pending (s : State) (d : Delay) : (s.delay d).pending = s.pending := rfl
@[simp] theorem State.delay_active (s : State) (d : Delay) : (s.delay d).active = s.active := rfl
@[simp] theorem State.delay_answers (s : State) (d : Delay) : (s.delay d).answers = s.answers := rfl
@[simp] theorem State.delay_polls (s : State) (d : Delay) : (s.delay d).polls = s.polls := rfl
@[simp] theorem State.delay_draws (s : State) (d : Delay) : (s.delay d).draws = s.draws := rfl

@[simp] theorem State.floatData_a (s : State) : s.floatData.a = s.a := rfl
@[simp] theorem State.floatData_b (s : State) : s.floatData.b = s.b := rfl
@[simp] theorem State.floatData_z (s : State) : s.floatData.z = s.z := rfl
@[simp] theorem State.floatData_c (s : State) : s.floatData.c = s.c := rfl
@[simp] theorem State.floatData_pc (s : State) : s.floatData.pc = s.pc := rfl
@[simp] theorem State.floatData_mem (s : State) : s.floatData.mem = s.mem := rfl
@[simp] theorem State.floatData_run (s : State) : s.floatData.run = s.run := rfl
@[simp] theorem State.floatData_drv (s : State) : s.floatData.drv = s.drv := rfl
@[simp] theorem State.floatData_dir (s : State) : s.floatData.dir = s.dir := rfl
@[simp] theorem State.floatData_rs (s : State) : s.floatData.rs = s.rs := rfl
@[simp] theorem State.floatData_rw (s : State) : s.floatData.rw = s.rw := rfl
@[simp] theorem State.floatData_e (s : State) : s.floatData.e = s.e := rfl
@[simp] theorem State.floatData_dout (s : State) : s.floatData.dout = Config.floatingData s.draws := rfl
@[simp] theorem State.floatData_trace (s : State) : s.floatData.trace = s.trace := rfl
@[simp] theorem State.floatData_delays (s : State) : s.floatData.delays = s.delays := rfl
@[simp] theorem State.floatData_params (s : State) : s.floatData.params = s.params := rfl
@[simp] theorem State.floatData_stage (s : State) : s.floatData.stage = s.stage := rfl
@[simp] theorem State.floatData_pending (s : State) : s.floatData.pending = s.pending := rfl
@[simp] theorem State.floatData_active (s : State) : s.floatData.active = s.active := rfl
@[simp] theorem State.floatData_answers (s : State) : s.floatData.answers = s.answers := rfl
@[simp] theorem State.floatData_polls (s : State) : s.floatData.polls = s.polls := rfl
@[simp] theorem State.floatData_draws (s : State) : s.floatData.draws = s.draws + 1 := rfl

@[simp] theorem State.toPhase_a (s : State) (c : DriverCall) (ph : Phase) : (s.toPhase c ph).a = s.a := rfl
@[simp] theorem State.toPhase_b (s : State) (c : DriverCall) (ph : Phase) : (s.toPhase c ph).b = s.b := rfl
@[simp] theorem State.toPhase_z (s : State) (c : DriverCall) (ph : Phase) : (s.toPhase c ph).z = s.z := rfl
@[simp] theorem State.toPhase_c (s : State) (c : DriverCall) (ph : Phase) : (s.toPhase c ph).c = s.c := rfl
@[simp] theorem State.toPhase_pc (s : State) (c : DriverCall) (ph : Phase) : (s.toPhase c ph).pc = s.pc := rfl
@[simp] theorem State.toPhase_mem (s : State) (c : DriverCall) (ph : Phase) : (s.toPhase c ph).mem = s.mem := rfl
@[simp] theorem State.toPhase_run (s : State) (c : DriverCall) (ph : Phase) : (s.toPhase c ph).run = s.run := rfl
@[simp] theorem State.toPhase_drv (s : State) (c : DriverCall) (ph : Phase) : (s.toPhase c ph).drv = s.drv := rfl
@[simp] theorem State.toPhase_dir (s : State) (c : DriverCall) (ph : Phase) : (s.toPhase c ph).dir = s.dir := rfl
@[simp] theorem State.toPhase_rs (s : State) (c : DriverCall) (ph : Phase) : (s.toPhase c ph).rs = s.rs := rfl
@[simp] theorem State.toPhase_rw (s : State) (c : DriverCall) (ph : Phase) : (s.toPhase c ph).rw = s.rw := rfl
@[simp] theorem State.toPhase_e (s : State) (c : DriverCall) (ph : Phase) : (s.toPhase c ph).e = s.e := rfl
@[simp] theorem State.toPhase_dout (s : State) (c : DriverCall) (ph : Phase) : (s.toPhase c ph).dout = s.dout := rfl
@[simp] theorem State.toPhase_trace (s : State) (c : DriverCall) (ph : Phase) : (s.toPhase c ph).trace = s.trace := rfl
@[simp] theorem State.toPhase_delays (s : State) (c : DriverCall) (ph : Phase) : (s.toPhase c ph).delays = s.delays := rfl
@[simp] theorem State.toPhase_params (s : State) (c : DriverCall) (ph : Phase) : (s.toPhase c ph).params = s.params := rfl
@[simp] theorem State.toPhase_stage (s : State) (c : DriverCall) (ph : Phase) : (s.toPhase c ph).stage = s.stage := rfl
@[simp] theorem State.toPhase_pending (s : State) (c : DriverCall) (ph : Phase) : (s.toPhase c ph).pending = s.pending := rfl
@[simp] theorem State.toPhase_active (s : State) (c : DriverCall) (ph : Phase) : (s.toPhase c ph).active = some ⟨c, ph⟩ := rfl
@[simp] theorem State.toPhase_answers (s : State) (c : DriverCall) (ph : Phase) : (s.toPhase c ph).answers = s.answers := rfl
@[simp] theorem State.toPhase_polls (s : State) (c : DriverCall) (ph : Phase) : (s.toPhase c ph).polls = s.polls := rfl
@[simp] theorem State.toPhase_draws (s : State) (c : DriverCall) (ph : Phase) : (s.toPhase c ph).draws = s.draws := rfl

@[simp] theorem State.restart_a (s : State) (image : Image) : (s.restart image).a = 0 := rfl
@[simp] theorem State.restart_b (s : State) (image : Image) : (s.restart image).b = 0 := rfl
@[simp] theorem State.restart_z (s : State) (image : Image) : (s.restart image).z = false := rfl
@[simp] theorem State.restart_c (s : State) (image : Image) : (s.restart image).c = false := rfl
@[simp] theorem State.restart_pc (s : State) (image : Image) : (s.restart image).pc = 0 := rfl
@[simp] theorem State.restart_mem (s : State) (image : Image) : (s.restart image).mem = Memory.ofImage image := rfl
@[simp] theorem State.restart_run (s : State) (image : Image) : (s.restart image).run = .running := rfl
@[simp] theorem State.restart_drv (s : State) (image : Image) : (s.restart image).drv = .idle := rfl
@[simp] theorem State.restart_dir (s : State) (image : Image) : (s.restart image).dir = .write := rfl
@[simp] theorem State.restart_rs (s : State) (image : Image) : (s.restart image).rs = .low := rfl
@[simp] theorem State.restart_rw (s : State) (image : Image) : (s.restart image).rw = .write := rfl
@[simp] theorem State.restart_e (s : State) (image : Image) : (s.restart image).e = .deasserted := rfl
@[simp] theorem State.restart_dout (s : State) (image : Image) : (s.restart image).dout = 0 := rfl
@[simp] theorem State.restart_trace (s : State) (image : Image) : (s.restart image).trace = [] := rfl
@[simp] theorem State.restart_delays (s : State) (image : Image) : (s.restart image).delays = [] := rfl
@[simp] theorem State.restart_params (s : State) (image : Image) : (s.restart image).params = s.params := rfl
@[simp] theorem State.restart_stage (s : State) (image : Image) : (s.restart image).stage = .fetch := rfl
@[simp] theorem State.restart_pending (s : State) (image : Image) : (s.restart image).pending = [] := rfl
@[simp] theorem State.restart_active (s : State) (image : Image) : (s.restart image).active = none := rfl
@[simp] theorem State.restart_answers (s : State) (image : Image) : (s.restart image).answers = s.answers := rfl
@[simp] theorem State.restart_polls (s : State) (image : Image) : (s.restart image).polls = s.polls := rfl
@[simp] theorem State.restart_draws (s : State) (image : Image) : (s.restart image).draws = s.draws := rfl

end Sys2Proof.Machine
end

