-- ==== Sys2Proof/Laws/Alu.lean ====
section
/-! SUPPORT. What the adder, the flags and the jump operation give, said once on numbers. -/

namespace Sys2Proof.Machine

/-- The 9-bit sum does not overflow (42_arithmetic R122). -/
@[simp] theorem sum9_toNat (x y : Byte) : (sum9 x y).toNat = x.toNat + y.toNat := by
  have hx := x.isLt
  have hy := y.isLt
  simp only [sum9, BitVec.toNat_add, BitVec.toNat_setWidth]
  omega

/-- The carry of a sum. -/
theorem carryFlag_sum9 (x y : Byte) : carryFlag (sum9 x y) = decide (x.toNat + y.toNat > 0xFF) := by
  simp only [carryFlag, gt_iff_lt, BitVec.lt_def, sum9_toNat]
  rfl

/-- The result of a sum. -/
theorem sumResult_sum9 (x y : Byte) : sumResult (sum9 x y) = BitVec.ofNat 8 (x.toNat + y.toNat) := by
  apply BitVec.eq_of_toNat_eq
  simp [sumResult]

/-- The Zero flag of a number taken modulo 256. -/
theorem zeroFlag_ofNat (k : Nat) : zeroFlag (BitVec.ofNat 8 k) = decide (k % 256 = 0) := by
  rw [Bool.eq_iff_iff]
  simp [zeroFlag, ← BitVec.toNat_inj]

/-- The one's complement as a number. -/
theorem complement_toNat (x : Byte) : (x ^^^ 0xFF).toNat = 255 - x.toNat := by
  revert x
  decide

/-- The immediate keeps its value (zero-extended). -/
@[simp] theorem immOperand_toNat (n : Nibble) : (immOperand n).toNat = n.toNat := by
  revert n
  decide

/-- The jump operation writes PC and goes on, and nothing else. -/
theorem State.jumpIf_eq (s : State) (taken : Bool) (n : Nibble) :
    s.jumpIf taken n = { s with pc := if taken = true then n else s.pc, stage := .dispatched } := by
  cases taken <;> simp [State.jumpIf, State.dispatched, State.writePc, targetOperand]

/-- An instruction with nothing to do goes on, and nothing else. -/
theorem State.noOperation_eq (s : State) : s.noOperation = { s with stage := .dispatched } := by
  simp [State.noOperation, State.dispatched]

end Sys2Proof.Machine
end

