-- ==== Sys2Proof/Laws/Memory.lean ====
section
/-! SUPPORT. What a memory operation can do, and that each keeps the canonical form. -/

namespace Sys2Proof.Machine

theorem Memory.erase_mem {m : Memory} {addr : Nat} {cell : Host.Cell} (h : cell ∈ m.erase addr) :
    cell ∈ m ∧ cell.1 ≠ addr := by
  induction m with
  | nil => simp [Memory.erase] at h
  | cons head rest ih =>
    simp only [Memory.erase] at h
    split at h
    · exact ⟨List.mem_cons_of_mem _ (ih h).1, (ih h).2⟩
    · rcases List.mem_cons.mp h with rfl | h'
      · exact ⟨List.mem_cons_self, ‹_›⟩
      · exact ⟨List.mem_cons_of_mem _ (ih h').1, (ih h').2⟩

@[simp] theorem Memory.readAt_erase_same (m : Memory) (addr : Nat) : (m.erase addr).readAt addr = blankCell := by
  induction m with
  | nil => rfl
  | cons head rest ih =>
    simp only [Memory.erase]
    split
    · exact ih
    · simp [Memory.readAt, *]

theorem Memory.readAt_erase_other (m : Memory) {addr other : Nat} (h : other ≠ addr) :
    (m.erase addr).readAt other = m.readAt other := by
  induction m with
  | nil => rfl
  | cons head rest ih =>
    simp only [Memory.erase, Memory.readAt]
    by_cases h1 : head.1 = addr
    · simp [h1, ih, show addr ≠ other from fun h3 => h h3.symm]
    · simp [h1, Memory.readAt, ih]

theorem Memory.readAt_insert_same (m : Memory) {addr : Nat} (v : Byte) (h : ∀ cell ∈ m, cell.1 ≠ addr) :
    (m.insert addr v).readAt addr = v := by
  induction m with
  | nil => simp [Memory.insert, Memory.readAt]
  | cons head rest ih =>
    simp only [Memory.insert]
    split
    · simp [Memory.readAt]
    · have h1 := h head List.mem_cons_self
      simp [Memory.readAt, h1, ih fun cell hc => h cell (List.mem_cons_of_mem _ hc)]

theorem Memory.readAt_insert_other (m : Memory) {addr other : Nat} (v : Byte) (h : other ≠ addr) :
    (m.insert addr v).readAt other = m.readAt other := by
  have h' : ¬ addr = other := fun h1 => h h1.symm
  induction m with
  | nil => simp [Memory.insert, Memory.readAt, h']
  | cons head rest ih =>
    simp only [Memory.insert]
    split
    · simp [Memory.readAt, h']
    · simp [Memory.readAt, ih]

/-- A read after a write to the same cell gives the value written. -/
@[simp] theorem Memory.readAt_writeAt_same (m : Memory) (addr : Nat) (v : Byte) : (m.writeAt addr v).readAt addr = v := by
  unfold Memory.writeAt
  split
  · next h => simp [h]
  · exact Memory.readAt_insert_same _ v fun _ hc => (Memory.erase_mem hc).2

/-- A write leaves every other cell alone. -/
theorem Memory.readAt_writeAt_other (m : Memory) {addr other : Nat} (v : Byte) (h : other ≠ addr) :
    (m.writeAt addr v).readAt other = m.readAt other := by
  unfold Memory.writeAt
  split
  · exact Memory.readAt_erase_other m h
  · rw [Memory.readAt_insert_other _ v h, Memory.readAt_erase_other m h]

theorem Memory.wfFrom_cons {low : Nat} {cell : Host.Cell} {rest : Memory} :
    Memory.wfFrom low (cell :: rest) = true ↔
      low ≤ cell.1 ∧ cell.1 < memorySize ∧ cell.2 ≠ blankCell ∧ Memory.wfFrom (cell.1 + 1) rest = true := by
  simp [Memory.wfFrom, and_assoc]

theorem Memory.wfFrom_mono {low high : Nat} {m : Memory} (h : Memory.wfFrom high m = true) (hle : low ≤ high) :
    Memory.wfFrom low m = true := by
  cases m with
  | nil => rfl
  | cons head rest =>
    rw [Memory.wfFrom_cons] at h ⊢
    exact ⟨le_trans hle h.1, h.2⟩

theorem Memory.erase_wfFrom {low addr : Nat} {m : Memory} (h : Memory.wfFrom low m = true) :
    Memory.wfFrom low (m.erase addr) = true := by
  induction m generalizing low with
  | nil => rfl
  | cons head rest ih =>
    rw [Memory.wfFrom_cons] at h
    simp only [Memory.erase]
    split
    · exact ih (Memory.wfFrom_mono h.2.2.2 (by omega))
    · rw [Memory.wfFrom_cons]
      exact ⟨h.1, h.2.1, h.2.2.1, ih h.2.2.2⟩

theorem Memory.insert_wfFrom {low addr : Nat} {m : Memory} {v : Byte} (h : Memory.wfFrom low m = true)
    (hfree : ∀ cell ∈ m, cell.1 ≠ addr) (hlow : low ≤ addr) (haddr : addr < memorySize) (hv : v ≠ blankCell) :
    Memory.wfFrom low (m.insert addr v) = true := by
  induction m generalizing low with
  | nil => simp [Memory.insert, Memory.wfFrom, hlow, haddr, hv]
  | cons head rest ih =>
    have hne := hfree head List.mem_cons_self
    simp only [Memory.insert]
    split
    · next hlt =>
      rw [Memory.wfFrom_cons] at h ⊢
      refine ⟨hlow, haddr, hv, ?_⟩
      rw [Memory.wfFrom_cons]
      exact ⟨hlt, h.2⟩
    · next hge =>
      rw [Memory.wfFrom_cons] at h ⊢
      refine ⟨h.1, h.2.1, h.2.2.1, ih h.2.2.2 (fun cell hc => hfree cell (List.mem_cons_of_mem _ hc)) ?_⟩
      omega

/-- Writing a cell keeps the canonical form. -/
theorem Memory.writeAt_wf {m : Memory} {addr : Nat} {v : Byte} (h : m.wf = true) (haddr : addr < memorySize) :
    (m.writeAt addr v).wf = true := by
  unfold Memory.writeAt
  split
  · exact Memory.erase_wfFrom h
  · exact Memory.insert_wfFrom (Memory.erase_wfFrom h) (fun _ hc => (Memory.erase_mem hc).2) (Nat.zero_le _) haddr ‹_›

theorem Memory.ofImageFrom_wfFrom (addr : Nat) (image : Image) :
    Memory.wfFrom addr (Memory.ofImageFrom addr image) = true := by
  induction image generalizing addr with
  | nil => rfl
  | cons v rest ih =>
    simp only [Memory.ofImageFrom]
    split
    · next h =>
      rw [Memory.wfFrom_cons]
      exact ⟨le_refl _, h.1, h.2, ih _⟩
    · exact Memory.wfFrom_mono (ih _) (by omega)

/-- An image is loaded in canonical form. -/
theorem Memory.ofImage_wf (image : Image) : (Memory.ofImage image).wf = true := Memory.ofImageFrom_wfFrom 0 image

theorem Memory.readAt_below {low addr : Nat} {m : Memory} (h : Memory.wfFrom low m = true) (hlt : addr < low) :
    m.readAt addr = blankCell := by
  induction m generalizing low with
  | nil => rfl
  | cons head rest ih =>
    rw [Memory.wfFrom_cons] at h
    simp only [Memory.readAt]
    rw [if_neg (by omega)]
    exact ih h.2.2.2 (by omega)

/-- Every cell of the map reads as the byte of the image at that place. -/
theorem Memory.readAt_ofImageFrom (image : Image) (start k : Nat) (hk : start + k < memorySize) :
    (Memory.ofImageFrom start image).readAt (start + k) = image.getD k blankCell := by
  induction image generalizing start k with
  | nil => simp [Memory.ofImageFrom, Memory.readAt]
  | cons v rest ih =>
    simp only [Memory.ofImageFrom]
    cases k with
    | zero =>
      split
      · simp [Memory.readAt]
      · next h =>
        have hv : v = blankCell := by
          by_contra hne
          exact h ⟨by omega, hne⟩
        rw [Memory.readAt_below (Memory.ofImageFrom_wfFrom _ _) (by omega)]
        simp [hv]
    | succ k =>
      have hrest := ih (start + 1) k (by omega)
      rw [show start + 1 + k = start + (k + 1) by omega] at hrest
      split
      · simp [Memory.readAt, hrest]
      · simp [hrest]

@[simp] theorem State.memWrite_memRead_same (s : State) (n : Nibble) (v : Byte) : (s.memWrite n v).memRead n = v :=
  Memory.readAt_writeAt_same _ _ _

theorem State.memWrite_memRead_other (s : State) {n other : Nibble} (v : Byte) (h : other ≠ n) :
    (s.memWrite n v).memRead other = s.memRead other :=
  Memory.readAt_writeAt_other _ v fun h' => h (BitVec.eq_of_toNat_eq h')

theorem State.memWrite_wf {s : State} (n : Nibble) (v : Byte) (h : s.mem.wf = true) : (s.memWrite n v).mem.wf = true :=
  Memory.writeAt_wf h n.isLt

end Sys2Proof.Machine
end

