-- ==== Sys2Proof/Laws/PerInstr.lean ====
section
/-! SUPPORT. Statements about every instruction as a term, one lemma per constructor. -/

namespace Sys2Proof.Laws.EncodingFields

/-- The encoded cell holds the instruction's opcode in bits 7..4 and its operand in bits 3..0 (30_encoding R70). -/
def Statement (i : Instr) : Prop := opcodeOf (encode i) = i.opcode ∧ operandOf (encode i) = i.operand

/-- The two fields of a cell are put together and read apart without loss. -/
theorem fields_of_join (op n : Nibble) :
    opcodeOf ((op.setWidth 8 <<< 4) ||| n.setWidth 8) = op ∧ operandOf ((op.setWidth 8 <<< 4) ||| n.setWidth 8) = n := by
  revert op n
  decide

theorem nop (n : Nibble) : Statement (.nop n) := fields_of_join _ _
theorem lda (n : Nibble) : Statement (.lda n) := fields_of_join _ _
theorem add (n : Nibble) : Statement (.add n) := fields_of_join _ _
theorem sub (n : Nibble) : Statement (.sub n) := fields_of_join _ _
theorem sta (n : Nibble) : Statement (.sta n) := fields_of_join _ _
theorem ldi (n : Nibble) : Statement (.ldi n) := fields_of_join _ _
theorem jmp (n : Nibble) : Statement (.jmp n) := fields_of_join _ _
theorem jc (n : Nibble) : Statement (.jc n) := fields_of_join _ _
theorem jz (n : Nibble) : Statement (.jz n) := fields_of_join _ _
theorem nop9 (n : Nibble) : Statement (.nop9 n) := fields_of_join _ _
theorem nop10 (n : Nibble) : Statement (.nop10 n) := fields_of_join _ _
theorem nop11 (n : Nibble) : Statement (.nop11 n) := fields_of_join _ _
theorem nop12 (n : Nibble) : Statement (.nop12 n) := fields_of_join _ _
theorem nop13 (n : Nibble) : Statement (.nop13 n) := fields_of_join _ _
theorem out (n : Nibble) : Statement (.out n) := fields_of_join _ _
theorem hlt (n : Nibble) : Statement (.hlt n) := fields_of_join _ _

end Sys2Proof.Laws.EncodingFields
end

