-- ==== Sys2Proof/Laws/Step.lean ====
section
/-! SUPPORT. What one step, one dispatch and one Driver step can do, said once. -/

namespace Sys2Proof.Machine

/-- Everything a step that answers a next state can have done. -/
theorem step_cases {s t : State} (h : step s = .next t) :
    (∃ x, s.active = some x ∧ t = s.driverStep x) ∨
    (∃ call rest, s.active = none ∧ s.pending = call :: rest ∧ t = s.beginCall call rest) ∨
    (s.active = none ∧ s.pending = [] ∧ s.stage = .dispatched ∧ t = s.refreshStatus) ∨
    (s.active = none ∧ s.pending = [] ∧ s.stage = .refreshed ∧ t = s.advance) ∨
    (s.betweenCycles ∧ s.run = .halted ∧ t = s) ∨
    (s.betweenCycles ∧ s.run = .running ∧ exec s.fetch s = .next t) := by
  unfold step at h
  split at h
  · next x hx => exact .inl ⟨x, hx, by simpa using h.symm⟩
  · next hx =>
    split at h
    · next call rest hp => exact .inr (.inl ⟨call, rest, hx, hp, by simpa using h.symm⟩)
    · next hp =>
      split at h
      · next hs => exact .inr (.inr (.inl ⟨hx, hp, hs, by simpa using h.symm⟩))
      · next hs => exact .inr (.inr (.inr (.inl ⟨hx, hp, hs, by simpa using h.symm⟩)))
      · next hs =>
        split at h
        · next hr => exact .inr (.inr (.inr (.inr (.inl ⟨⟨hx, hp, hs⟩, hr, by simpa using h.symm⟩))))
        · next hr => exact .inr (.inr (.inr (.inr (.inr ⟨⟨hx, hp, hs⟩, hr, h⟩))))

theorem step_active {s : State} {x : Transfer} (h : s.active = some x) : step s = .next (s.driverStep x) := by
  simp [step, h]

theorem step_call {s : State} {call : DriverCall} {rest : List DriverCall} (hx : s.active = none)
    (hp : s.pending = call :: rest) : step s = .next (s.beginCall call rest) := by
  simp [step, hx, hp]

/-- A Driver step changes no architectural state, no parameter, and not what waits behind it. -/
theorem driverStep_keeps (s : State) (x : Transfer) :
    (s.driverStep x).arch = s.arch ∧ (s.driverStep x).params = s.params ∧ (s.driverStep x).stage = s.stage ∧
      (s.driverStep x).pending = s.pending := by
  obtain ⟨call, phase⟩ := x
  cases phase
  all_goals
    simp only [State.driverStep, State.pollPulse, State.pollTake, State.turnRound, State.turnWrite, State.writeSetup,
      State.writePulse, State.writeTake, State.releaseBus, State.endCall, State.arch, State.pollAgain]
  all_goals
    simp [State.takeAnswer, apply_ite State.a, apply_ite State.b, apply_ite State.z, apply_ite State.c, apply_ite State.pc,
      apply_ite State.mem, apply_ite State.run, apply_ite State.params, apply_ite State.stage, apply_ite State.pending]
  all_goals (cases s.answers <;> simp)

/-- Beginning a call changes no architectural state. -/
theorem beginCall_arch (s : State) (call : DriverCall) (rest : List DriverCall) :
    (s.beginCall call rest).arch = s.arch := rfl

/-- The status refresh changes no architectural state. -/
theorem refreshStatus_arch (s : State) : s.refreshStatus.arch = s.arch := rfl

/-- Everything the advance can do. -/
theorem advance_cases (s : State) :
    (s.run = .running ∧ s.advance = { s with pc := s.pc + 1, delays := s.delays ++ [.tInstr], stage := .fetch }) ∨
      (s.run = .halted ∧ s.advance = { s with stage := .fetch }) := by
  cases h : s.run
  · exact .inl ⟨rfl, by simp [State.advance, h, State.delay]⟩
  · exact .inr ⟨rfl, by simp [State.advance, h]⟩

/-- Everything an instruction leaves alone: the pins, the records, the parameters, the call in progress and the
environment. What it writes is said instruction by instruction. -/
theorem exec_keeps {i : Instr} {s t : State} (h : exec i s = .next t) :
    t.pins = s.pins ∧ t.dout = s.dout ∧ t.trace = s.trace ∧ t.delays = s.delays ∧ t.params = s.params ∧
      t.active = s.active ∧ t.answers = s.answers ∧ t.polls = s.polls ∧ t.draws = s.draws ∧ t.stage = .dispatched := by
  cases i <;> simp only [exec, execNop, execLda, execAdd, execSub, execSta, execLdi, execJmp, execJc, execJz, execNop9,
    execNop10, execNop11, execNop12, execNop13, execOut, execHlt, Host.Outcome.next.injEq] at h <;> subst h
  all_goals try simp [State.pins, State.noOperation, State.addWrites, State.subWrites]
  all_goals (unfold State.jumpIf; split <;> simp)

end Sys2Proof.Machine
end

