-- ==== Sys2Proof/Tests/Slice0.lean ====
section
/-! SUPPORT. Small tests of the model, each on values the spec states or prints (spec/95_test_vectors.md unless said
otherwise), and a witness for the hypotheses of each statement. -/

namespace Sys2Proof.Tests

open Sys2Proof.Machine

/-! ## Well-formedness: each check refuses an ill-formed term -/

theorem test_image_of_sixteen_bytes : Image.wellFormed (List.replicate 16 0xE0) = true := by decide

theorem test_image_of_other_lengths_refused :
    Image.wellFormed (List.replicate 15 0xE0) = false ∧ Image.wellFormed (List.replicate 17 0xE0) = false := by decide

theorem test_noncanonical_operands_refused :
    (Instr.nop 7).isCanonical = false ∧ (Instr.nop9 1).isCanonical = false ∧ (Instr.nop10 5).isCanonical = false ∧
      (Instr.nop11 11).isCanonical = false ∧ (Instr.nop12 1).isCanonical = false ∧
      (Instr.nop13 15).isCanonical = false ∧ (Instr.out 9).isCanonical = false ∧ (Instr.hlt 15).isCanonical = false ∧
      (Instr.lda 15).isCanonical = true := by decide

theorem test_memory_form_refuses :
    Memory.wf [(3, 1), (2, 1)] = false ∧ Memory.wf [(2, 1), (2, 1)] = false ∧ Memory.wf [(16, 1)] = false ∧
      Memory.wf [(2, 0)] = false ∧ Memory.wf [(2, 1), (15, 9)] = true := by decide

/-! ## Decoding: words written out bit by bit (section 2.1) -/

theorem test_decode_nop : decode 0b00001111 = .nop 15 := by decide
theorem test_decode_lda : decode 0b00010111 = .lda 7 := by decide
theorem test_decode_add : decode 0b00101111 = .add 15 := by decide
theorem test_decode_sub : decode 0b00110000 = .sub 0 := by decide
theorem test_decode_sta : decode 0b01001010 = .sta 10 := by decide
theorem test_decode_ldi : decode 0b01011111 = .ldi 15 := by decide
theorem test_decode_jmp : decode 0b01101001 = .jmp 9 := by decide
theorem test_decode_jc : decode 0b01111100 = .jc 12 := by decide
theorem test_decode_jz : decode 0b10000000 = .jz 0 := by decide
theorem test_decode_nop9 : decode 0b10010000 = .nop9 0 := by decide
theorem test_decode_nop10 : decode 0b10100101 = .nop10 5 := by decide
theorem test_decode_nop11 : decode 0b10111011 = .nop11 11 := by decide
theorem test_decode_nop12 : decode 0b11000001 = .nop12 1 := by decide
theorem test_decode_nop13 : decode 0b11011111 = .nop13 15 := by decide
theorem test_decode_out : decode 0b11101001 = .out 9 := by decide
theorem test_decode_hlt : decode 0b11111111 = .hlt 15 := by decide

theorem test_no_cell_refused : decodeCells [] = .error .noCell := rfl

theorem test_table_word : decodeTableWord 8 0x4E = some (.sta 14) ∧ decodeTableWord 16 0x4E = none := by decide

/-! ## One instruction each (sections 2.2 to 2.6) -/

/-- A running state with some cells and given A, B, Z, C and PC. -/
def stateOf (mem : Memory) (a b : Byte) (z c : Bool) (pc : Nibble) : State :=
  { State.resetWith Params.default mem with a := a, b := b, z := z, c := c, pc := pc }

/-- A, B, Z, C and PC of an outcome. -/
def registers : Result → Option (Byte × Byte × Bool × Bool × Nibble)
  | .next t => some (t.a, t.b, t.z, t.c, t.pc)
  | .fault _ => none
  | .refused _ => none

/-- The write events of the calls an outcome has made and not begun. -/
def drawn : Result → List BusEvent
  | .next t => t.pending.map DriverCall.event
  | .fault _ => []
  | .refused _ => []

theorem test_lda_zero_sets_z_leaves_c :
    registers (step (stateOf [(0, 0x17)] 5 0 false true 0)) = some (0, 0, true, true, 0) := by decide

theorem test_lda_own_cell_draws_a :
    drawn (step (stateOf [(0, 0x10)] 0 0 false false 0)) =
      [.cmd 0x80, .chr 0x41, .chr 0x3D, .chr 0x31, .chr 0x30] := by decide

theorem test_ldi_largest_clears_z :
    registers (step (stateOf [(0, 0x5F)] 0 0 true false 0)) = some (0x0F, 0, false, false, 0) := by decide

theorem test_sta_into_own_cell :
    (match step (stateOf [(3, 0x43)] 0xF0 0 false false 3) with
      | .next t => t.mem == [(3, 0xF0)]
      | .fault _ => false
      | .refused _ => false) = true := by decide

theorem test_sta_of_zero_keeps_the_form :
    (match step (stateOf [(0, 0x49), (9, 0x77)] 0 0 false false 0) with
      | .next t => t.mem == [(0, 0x49)] && !t.z
      | .fault _ => false
      | .refused _ => false) = true := by decide

theorem test_add_wraps_with_both_flags :
    registers (step (stateOf [(0, 0x29), (9, 1)] 0xFF 0 false false 0)) = some (0, 1, true, true, 0) := by decide

theorem test_add_draws_b_then_a :
    drawn (step (stateOf [(2, 0x22)] 1 0 false false 2)) =
      [.cmd 0x85, .chr 0x42, .chr 0x3D, .chr 0x32, .chr 0x32, .cmd 0x80, .chr 0x41, .chr 0x3D, .chr 0x32, .chr 0x33] := by
  decide

theorem test_sub_of_the_source :
    registers (step (stateOf [(0, 0x39), (9, 3)] 5 0 false false 0)) = some (1, 3, false, true, 0) := by decide

theorem test_sub_zero_without_carry :
    registers (exec (.sub 9) (stateOf [(9, 0xFF)] 0 0 false true 0)) = some (0, 0xFF, true, false, 0) := by decide

theorem test_jmp_then_advance :
    (match step (stateOf [(0, 0x6F)] 0 0 false false 0) with
      | .next t => t.pc == 15 && t.refreshStatus.advance.pc == 0
      | .fault _ => false
      | .refused _ => false) = true := by decide

theorem test_jc_taken : registers (step (stateOf [(3, 0x79)] 0 0 false true 3)) = some (0, 0, false, true, 9) := by
  decide

theorem test_jc_ignores_z : registers (step (stateOf [(3, 0x79)] 0 0 true false 3)) = some (0, 0, true, false, 3) := by
  decide

theorem test_jz_taken : registers (step (stateOf [(15, 0x8F)] 0 0 true false 15)) = some (0, 0, true, false, 15) := by
  decide

theorem test_jz_at_reset_not_taken :
    registers (step (stateOf [(0, 0x85)] 0 0 false false 0)) = some (0, 0, false, false, 0) := by decide

theorem test_nop : registers (step (stateOf [] 0x5A 0xA5 true true 15)) = some (0x5A, 0xA5, true, true, 15) := by decide

theorem test_unmapped_opcodes :
    registers (step (stateOf [(2, 0x9C)] 0 0 true false 2)) = some (0, 0, true, false, 2) ∧
      drawn (step (stateOf [(10, 0xDF)] 0 0 false false 10)) = [] := by decide

theorem test_out_draws_three_digits :
    drawn (step (stateOf [(0, 0xE0)] 0x64 0 false false 0)) = [.cmd 0xCD, .chr 0x31, .chr 0x30, .chr 0x30] := by decide

theorem test_hlt_keeps_pc :
    (match step (stateOf [(11, 0xF7)] 0x33 0x44 false true 11) with
      | .next t => t.run == .halted && t.refreshStatus.advance.pc == 11
      | .fault _ => false
      | .refused _ => false) = true := by decide

theorem test_placed_word_runs_first :
    registers (step (State.reset.withFetchWord 8 0x5F)) = some (15, 0, false, false, 0) := by decide

/-- Section 2.7, `showStatus(10, false, true)`, for either case of the digit. -/
theorem test_show_status :
    (showStatus Params.default 10 false true).map DriverCall.event =
        [.cmd 0x8A, .chr 0x50, .chr 0x3D, .chr 0x61, .chr 0x20, .chr 0x43] ∧
      (showStatus { Params.default with statusHexUpper := true } 10 false true).map DriverCall.event =
        [.cmd 0x8A, .chr 0x50, .chr 0x3D, .chr 0x41, .chr 0x20, .chr 0x43] := by decide

/-- Section 2.8: 0xC3 and 0x91 are busy answers, 0x7F and 0x11 ready ones. -/
theorem test_busy_bit : busy 0xC3 = true ∧ busy 0x91 = true ∧ busy 0x7F = false ∧ busy 0x11 = false := by decide

theorem test_poll_takes_the_answer :
    (match step { stateOf [] 0 0 false false 0 with
        active := some ⟨.writeCommand 0x8A, .pollSample⟩, e := .asserted, answers := [0x80, 0xFF, 0x7F] } with
      | .next t => t.trace == [.poll 0x80] && t.answers == [0xFF, 0x7F] && t.e == .deasserted
      | .fault _ => false
      | .refused _ => false) = true := by decide

/-! ## Witnesses: the hypotheses of each statement are met -/

/-- A state between cycles with a cell to run and enough ready answers for any cycle. -/
def readyState (cell : Byte) (z c : Bool) : State :=
  { stateOf [(5, cell), (9, 0x77)] 0x12 0x34 z c 5 with answers := List.replicate 16 0x0A }

/-- The Driver at a phase of a call, with the pins of that phase and the byte on the data lines. -/
def driverState (call : DriverCall) (phase : Phase) (answers : List Byte) : State :=
  { stateOf [(5, 0x1E)] 0x12 0x34 false true 5 with
    drv := (phasePins call phase).drv
    dir := (phasePins call phase).dir
    rs := (phasePins call phase).rs
    rw := (phasePins call phase).rw
    e := (phasePins call phase).e
    dout := call.byte
    stage := .refreshed
    active := some ⟨call, phase⟩
    answers := answers }

theorem driverState_pinsMatch (call : DriverCall) (phase : Phase) (answers : List Byte) :
    (driverState call phase answers).pinsMatch := by
  cases call
  · exact ⟨rfl, fun _ => .inl rfl⟩
  · exact ⟨rfl, fun _ => .inr rfl⟩

theorem witness_OnlyTheTableIsWritten :
    (∃ t, exec (.lda 9) (readyState 0x19 true false) = .next t ∧ t.a ≠ (readyState 0x19 true false).a ∧
      t.z ≠ (readyState 0x19 true false).z) ∧
    (∃ t, exec (.sub 9) (readyState 0x39 true true) = .next t ∧ t.b ≠ (readyState 0x39 true true).b ∧
      t.c ≠ (readyState 0x39 true true).c) ∧
    (∃ t, exec (.sta 15) (readyState 0x4F true true) = .next t ∧
      t.memRead 15 ≠ (readyState 0x4F true true).memRead 15) ∧
    (∃ t, exec (.jmp 15) (readyState 0x6F true true) = .next t ∧ t.pc ≠ (readyState 0x6F true true).pc) ∧
    (∃ t, exec (.hlt 0) (readyState 0xF0 true true) = .next t ∧ t.run ≠ (readyState 0xF0 true true).run ∧
      (readyState 0xF0 true true).run = .running) :=
  ⟨⟨_, rfl, by decide, by decide⟩, ⟨_, rfl, by decide, by decide⟩, ⟨_, rfl, by decide⟩, ⟨_, rfl, by decide⟩,
    ⟨_, rfl, by decide, rfl⟩⟩

theorem witness_ZeroFlagFollowsTheNewA :
    (∃ t, exec (.ldi 0) (readyState 0x50 false true) = .next t) ∧
      (∃ t, exec (.out 0) (readyState 0xE0 true true) = .next t) := ⟨⟨_, rfl⟩, ⟨_, rfl⟩⟩

theorem witness_CarryFlagFollowsTheSum :
    (∃ t, exec (.add 9) (readyState 0x29 false true) = .next t) ∧
      (∃ t, exec (.sub 9) (readyState 0x39 false true) = .next t) ∧
      (∃ t, exec (.lda 9) (readyState 0x19 false true) = .next t) := ⟨⟨_, rfl⟩, ⟨_, rfl⟩, ⟨_, rfl⟩⟩

theorem witness_SubOfEqualOperands :
    (stateOf [(9, 0x12)] 0x12 0 true true 0).a = (stateOf [(9, 0x12)] 0x12 0 true true 0).memRead 9 := by decide

theorem witness_StepRunsTheFetchedInstruction : State.reset.betweenCycles ∧ State.reset.run = .running := by decide

theorem witness_JumpsOfARunningMachine :
    (readyState 0x6F true true).run = .running ∧ (readyState 0x7F true true).c = true ∧
      (readyState 0x8F false true).z = false := by decide

theorem witness_PlacedWordIsRun : decodeTableWord 8 0xF7 = some (.hlt 7) := by decide

theorem witness_StatusRefreshIsStepThree :
    ({ readyState 0x00 true true with stage := .dispatched } : State).active = none ∧
      ({ readyState 0x00 true true with stage := .dispatched } : State).pending = [] := by decide

theorem witness_AdvanceIsStepFour :
    ({ readyState 0x00 true true with stage := .refreshed, pc := 15 } : State).active = none ∧
      ({ readyState 0x00 true true with stage := .refreshed, pc := 15 } : State).pending = [] ∧
      ({ readyState 0x00 true true with stage := .refreshed, pc := 15 } : State).run = .running ∧
      ({ readyState 0x00 true true with stage := .refreshed, run := .halted } : State).pending = [] := by decide

theorem witness_TakenJumpResumesOnePastItsOperand :
    (readyState 0x6F false false).betweenCycles ∧ (readyState 0x6F false false).run = .running ∧
      6 ≤ readyAnswers (readyState 0x6F false false).answers ∧ (readyState 0x6F false false).fetch = .jmp 15 ∧
      (readyState 0x7F false true).fetch = .jc 15 ∧ (readyState 0x7F false true).c = true ∧
      (readyState 0x8F true false).fetch = .jz 15 ∧ (readyState 0x8F true false).z = true ∧
      (readyState 0x7F true false).fetch = .jc 15 ∧ (readyState 0x7F true false).c = false ∧
      (readyState 0x8F false true).fetch = .jz 15 ∧ (readyState 0x8F false true).z = false := by decide

theorem witness_HaltedStaysFrozen :
    (∃ t, stepN 1 (driverState (.writeChar 0x20) .release []) = .next t ∧
      stepN 1 { driverState (.writeChar 0x20) .release [] with run := .halted } = .next { t with run := .halted }) ∧
      ({ readyState 0xF0 true true with run := .halted } : State).betweenCycles := ⟨⟨_, rfl, rfl⟩, by decide⟩

theorem witness_StepsRefineTheCycle :
    (readyState 0x29 false false).betweenCycles ∧ (readyState 0x29 false false).run = .running ∧
      ((readyState 0x29 false false).arch.cycle (readyState 0x29 false false).params).2.length ≤
        readyAnswers (readyState 0x29 false false).answers := by decide

theorem witness_WaitingChangesNoOutcome :
    ¬ (driverState (.writeChar 0x20) (.pollEnd 0x80) []).betweenCycles ∧
      ∃ t, step (driverState (.writeChar 0x20) (.pollEnd 0x80) []) = .next t := ⟨by decide, _, rfl⟩

theorem witness_CycleCompletesIfReady :
    (driverState (.writeChar 0x20) .pollSetup [0x80, 0x0A]).readyPollsLeft ≤
        readyAnswers (driverState (.writeChar 0x20) .pollSetup [0x80, 0x0A]).answers ∧
      ((driverState (.writeChar 0x20) .pollSetup [0x80, 0x0A]).betweenCycles →
        (driverState (.writeChar 0x20) .pollSetup [0x80, 0x0A]).run = .halted) := by decide

theorem witness_StoreIsSeenByTheNextFetch :
    (readyState 0x46 false false).betweenCycles ∧ (readyState 0x46 false false).run = .running ∧
      (readyState 0x46 false false).fetch = .sta 6 ∧ 6 ≤ readyAnswers (readyState 0x46 false false).answers ∧
      (6 : Nibble) = (readyState 0x46 false false).pc + 1 := by decide

theorem witness_TheBusWritesNoArchitecture :
    ((driverState (.writeChar 0x20) .pulse []).active ≠ none ∧
      ∃ t, step (driverState (.writeChar 0x20) .pulse []) = .next t) ∧
    (({ readyState 0x00 true true with pending := [.writeCommand 0x8A] } : State).pending ≠ [] ∧
      ∃ t, step { readyState 0x00 true true with pending := [.writeCommand 0x8A] } = .next t) :=
  ⟨⟨by decide, _, rfl⟩, ⟨by decide, _, rfl⟩⟩

/-- Two machines at the settle delay of the last write of a cycle, whose answers and polls so far differ. -/
def lastWrite (polls : List BusEvent) (answers : List Byte) : State :=
  { driverState (.writeChar 0x20) .release answers with trace := polls ++ [.chr 0x20] }

theorem lastWrite_reaches (polls : List BusEvent) (answers : List Byte) :
    ∃ t, ReachesBoundary (lastWrite polls answers) 2 t := by
  refine ⟨_, by decide, rfl, ⟨rfl, rfl, rfl⟩, ?_⟩
  intro j u h0 h2 hu hb
  obtain rfl : j = 1 := by omega
  cases hu
  exact absurd (show Stage.refreshed = Stage.fetch from hb.2.2) (by decide)

theorem witness_OutcomeIgnoresTheOracle :
    (lastWrite [.poll 0] [0x80]).arch = (lastWrite [.poll 0x80, .poll 0x0A] []).arch ∧
      (lastWrite [.poll 0] [0x80]).params = (lastWrite [.poll 0x80, .poll 0x0A] []).params ∧
      (lastWrite [.poll 0] [0x80]).stage = (lastWrite [.poll 0x80, .poll 0x0A] []).stage ∧
      (lastWrite [.poll 0] [0x80]).promisedWrites = (lastWrite [.poll 0x80, .poll 0x0A] []).promisedWrites ∧
      ((lastWrite [.poll 0] [0x80]).betweenCycles ↔ (lastWrite [.poll 0x80, .poll 0x0A] []).betweenCycles) ∧
      (∃ t, ReachesBoundary (lastWrite [.poll 0] [0x80]) 2 t) ∧
      (∃ t, ReachesBoundary (lastWrite [.poll 0x80, .poll 0x0A] []) 2 t) :=
  ⟨by decide, by decide, by decide, by decide, by decide, lastWrite_reaches _ _, lastWrite_reaches _ _⟩

/-- Whether the next boundary is exactly `k` steps away. -/
def boundaryAfter : Nat → State → Bool
  | 0, _ => false
  | k + 1, s =>
    match step s with
    | .next t => if t.betweenCycles then k == 0 else boundaryAfter k t
    | .fault _ => false
    | .refused _ => false

theorem reaches_of_boundaryAfter (k : Nat) (s : State) (h : boundaryAfter k s = true) : ∃ t, ReachesBoundary s k t := by
  induction k generalizing s with
  | zero => simp [boundaryAfter] at h
  | succ k ih =>
    unfold boundaryAfter at h
    split at h
    · next u hu =>
      split at h
      · next hb =>
        obtain rfl : k = 0 := by simpa using h
        exact ⟨u, by omega, by simp [stepN, hu], hb, fun j _ h0 h1 => by omega⟩
      · next hb =>
        obtain ⟨t, _, hrun, ht, hfirst⟩ := ih u h
        refine ⟨t, by omega, by simpa [stepN, hu] using hrun, ht, fun j v h0 hj hv => ?_⟩
        obtain _ | j := j
        · omega
        · simp only [stepN, hu] at hv
          obtain _ | j := j
          · cases hv
            exact hb
          · exact hfirst (j + 1) v (by omega) (by omega) hv
    · cases h
    · cases h

/-- The same from a boundary: one whole cycle of STA, with other answers, other polls so far and other data lines. -/
theorem witness_OutcomeIgnoresTheOracle_from_a_boundary :
    (readyState 0x49 false true).betweenCycles ∧
      ({ readyState 0x49 false true with
          answers := 0xC3 :: List.replicate 6 0x7F, trace := [.poll 0x80, .poll 0], dout := 0x55 } : State).betweenCycles ∧
      (readyState 0x49 false true).promisedWrites = ({ readyState 0x49 false true with
          answers := 0xC3 :: List.replicate 6 0x7F, trace := [.poll 0x80, .poll 0], dout := 0x55 } : State).promisedWrites ∧
      (∃ t, ReachesBoundary (readyState 0x49 false true) 63 t) ∧
      (∃ t, ReachesBoundary { readyState 0x49 false true with
          answers := 0xC3 :: List.replicate 6 0x7F, trace := [.poll 0x80, .poll 0], dout := 0x55 } 66 t) :=
  ⟨by decide, by decide, by decide, reaches_of_boundaryAfter _ _ (by decide +kernel),
    reaches_of_boundaryAfter _ _ (by decide +kernel)⟩

theorem witness_ParametersNeverChange : ∃ t, stepN 2 (readyState 0x29 false false) = .next t := ⟨_, rfl⟩

/-- A state with one Driver call to run and the answers of the sixth row of section 2.8 for it. -/
def callState : State :=
  { stateOf [] 0 0 false false 0 with pending := [.writeChar 0x35], answers := [0xC3, 0x91] ++ 0x11 :: [0x00] }

/-- A command takes the other settle delay and the other level of RS; the answers are those of `callState`. -/
theorem witness_DriverCallRunsToIdle_command :
    ({ callState with pending := [.writeCommand 0x8A, .writeChar 0x50] } : State).pending =
      .writeCommand 0x8A :: [.writeChar 0x50] ∧
      ({ callState with pending := [.writeCommand 0x8A, .writeChar 0x50] } : State).active = none := ⟨rfl, rfl⟩

theorem witness_DriverCallRunsToIdle :
    callState.active = none ∧ callState.pending = .writeChar 0x35 :: [] ∧
      callState.answers = [0xC3, 0x91] ++ 0x11 :: [0x00] ∧
      (∀ u ∈ ([0xC3, 0x91] : List Byte), u.getLsbD 7 = true) ∧ (0x11 : Byte).getLsbD 7 = false := by decide

theorem witness_BusyAnswersAreWaitedOut :
    (driverState (.writeChar 0x41) .pollSetup ([0x80, 0x80] ++ [0x80])).active = some ⟨.writeChar 0x41, .pollSetup⟩ ∧
      (driverState (.writeChar 0x41) .pollSetup ([0x80, 0x80] ++ [0x80])).pinsMatch ∧
      (driverState (.writeChar 0x41) .pollSetup ([0x80, 0x80] ++ [0x80])).answers = [0x80, 0x80] ++ [0x80] ∧
      (∀ u ∈ ([0x80, 0x80] : List Byte), u.getLsbD 7 = true) :=
  ⟨rfl, driverState_pinsMatch _ _ _, rfl, by decide⟩

theorem witness_DriverMovesAreThoseOfTheProtocol :
    (callState.pinsMatch ∧ ∃ t, step callState = .next t ∧ t.drv ≠ callState.drv) ∧
    ((driverState (.writeChar 0x41) (.pollEnd 0x7F) []).pinsMatch ∧
      ∃ t, step (driverState (.writeChar 0x41) (.pollEnd 0x7F) []) = .next t ∧ t.drv ≠ .awaitingReady) ∧
    ((driverState (.writeChar 0x41) .release []).pinsMatch ∧
      ∃ t, step (driverState (.writeChar 0x41) .release []) = .next t ∧ t.drv ≠ .writing) :=
  ⟨⟨rfl, _, rfl, by decide⟩, ⟨driverState_pinsMatch _ _ _, _, rfl, by decide⟩,
    ⟨driverState_pinsMatch _ _ _, _, rfl, by decide⟩⟩

theorem witness_BusDirectionDiscipline :
    ((driverState (.writeChar 0x41) .pollSample []).pinsMatch ∧
      (driverState (.writeChar 0x41) .pollSample []).e = .asserted ∧
      (driverState (.writeChar 0x41) .pollSample []).rw = .read) ∧
    ((driverState (.writeChar 0x41) .pulse []).pinsMatch ∧
      (driverState (.writeChar 0x41) .pulse []).e = .asserted ∧
      (driverState (.writeChar 0x41) .pulse []).rw = .write) ∧
    ((driverState (.writeChar 0x41) .turnWrite []).pinsMatch ∧
      ∃ t, step (driverState (.writeChar 0x41) .turnWrite []) = .next t ∧
        t.rs ≠ (driverState (.writeChar 0x41) .turnWrite []).rs) :=
  ⟨⟨driverState_pinsMatch _ _ _, rfl, rfl⟩, ⟨driverState_pinsMatch _ _ _, rfl, rfl⟩,
    ⟨driverState_pinsMatch _ _ _, _, rfl, by decide⟩⟩

/-- Each of the three bus events is emitted by some step. -/
theorem witness_BusDirectionDiscipline_events :
    (∃ t, step (driverState (.writeCommand 0x8A) .pulse []) = .next t ∧
      t.trace = (driverState (.writeCommand 0x8A) .pulse []).trace ++ [.cmd 0x8A]) ∧
    (∃ t, step (driverState (.writeChar 0x50) .pulse []) = .next t ∧
      t.trace = (driverState (.writeChar 0x50) .pulse []).trace ++ [.chr 0x50]) ∧
    (∃ t, step (driverState (.writeChar 0x50) .pollSample [0xFF, 0x7F]) = .next t ∧
      t.trace = (driverState (.writeChar 0x50) .pollSample [0xFF, 0x7F]).trace ++ [.poll 0xFF]) :=
  ⟨⟨_, rfl, rfl⟩, ⟨_, rfl, rfl⟩, ⟨_, rfl, rfl⟩⟩

theorem witness_MemoryFormIsKept :
    (readyState 0x49 false false).mem.wf = true ∧ ∃ t, step (readyState 0x49 false false) = .next t :=
  ⟨by decide, _, rfl⟩

theorem witness_PinsStayMatched :
    (driverState (.writeCommand 0xCD) .setup []).pinsMatch ∧
      ∃ t, step (driverState (.writeCommand 0xCD) .setup []) = .next t := ⟨driverState_pinsMatch _ _ _, _, rfl⟩

theorem witness_TraceStaysInTheLanguage :
    ({ driverState (.writeCommand 0x8A) .pulse [] with trace := [.poll 0xFF, .poll 0x7F] } : State).traceInLanguage ∧
      ∃ t, step { driverState (.writeCommand 0x8A) .pulse [] with trace := [.poll 0xFF, .poll 0x7F] } = .next t :=
  ⟨⟨.ready, by decide, by decide⟩, _, rfl⟩

/-- The status field of a cycle, its first command already written. -/
def midField : State :=
  { stateOf [] 0 0 false false 0 with
    trace := [.poll 0, .cmd 0x8A]
    stage := .refreshed
    pending := [.writeChar 0x50, .writeChar 0x3D, .writeChar 0x30, .writeChar 0x20, .writeChar 0x20] }

theorem midField_wholeFields : midField.wholeFields := ⟨[.showStatus 0 false false], by decide⟩

theorem witness_WholeFieldsAreWritten : midField.wholeFields ∧ ∃ t, step midField = .next t :=
  ⟨midField_wholeFields, _, rfl⟩

theorem witness_ResetMeetsTheInvariants :
    ∃ params image, State.boot Params.default (List.replicate 16 0x1E) = State.boot params image :=
  ⟨Params.default, List.replicate 16 0x1E, rfl⟩

theorem witness_OnlyTheFormattersBytesAreSent :
    midField.wholeFields ∧ BusEvent.cmd 0x8A ∈ midField.trace := ⟨midField_wholeFields, by decide⟩

/-- A later reset of a machine that is inside a write, has stored and has seen polls: CORE starts anew, and the environment
goes on (log 12). -/
theorem test_restart_keeps_only_the_environment :
    (({ lastWrite [.poll 0] [0x80] with mem := [(5, 0x77)], polls := 3, draws := 7 } : State).restart
      (List.replicate 16 0x1E)) =
      { State.boot Params.default (List.replicate 16 0x1E) with answers := [0x80], polls := 3, draws := 7 } := by decide

theorem witness_EngineResetValues : Image.wellFormed (List.replicate 16 0x1E) = true := by decide

theorem witness_ThePictureIsAlwaysDefined : midField.wholeFields := midField_wholeFields

end Sys2Proof.Tests
end

/-! ## 10_state: what step 2 of each instruction writes, and the write table R24 -/

namespace Sys2Proof.Machine

/-! ### The writes of step 2, said once -/

/-- The state with what step 2 of an instruction writes, before its Formatter calls are made: the rows of 10_state R24.
A jump that is not taken writes PC back as it was. -/
def State.afterWrites (s : State) : Instr → State
  | .lda n => s.loadA (s.memRead n)
  | .add n => (s.writeB (s.memRead n)).writeSum (addSum s.a (s.memRead n))
  | .sub n => (s.writeB (s.memRead n)).writeSum (subSum s.a (s.memRead n))
  | .sta n => s.memWrite n s.a
  | .ldi n => s.loadA (immOperand n)
  | .jmp n => s.writePc n
  | .jc n => s.writePc (if s.c = true then n else s.pc)
  | .jz n => s.writePc (if s.z = true then n else s.pc)
  | .hlt _ => s.halt
  | .nop _ | .nop9 _ | .nop10 _ | .nop11 _ | .nop12 _ | .nop13 _ | .out _ => s

/-- The jump operation is a write of PC, to itself when the jump is not taken. -/
theorem State.jumpIf_eq_writePc_dispatched (s : State) (taken : Bool) (n : Nibble) :
    s.jumpIf taken n = (s.writePc (if taken = true then n else s.pc)).dispatched [] := by
  cases taken <;> rfl

/-- Every instruction answers, and does nothing but its writes and its Formatter calls. -/
theorem exec_eq_afterWrites_dispatched (i : Instr) (s : State) :
    ∃ calls, exec i s = .next ((s.afterWrites i).dispatched calls) := by
  cases i with
  | jmp n => exact ⟨[], rfl⟩
  | jc n => exact ⟨[], congrArg Host.Outcome.next (s.jumpIf_eq_writePc_dispatched s.c n)⟩
  | jz n => exact ⟨[], congrArg Host.Outcome.next (s.jumpIf_eq_writePc_dispatched s.z n)⟩
  | _ => exact ⟨_, rfl⟩

/-- The only state an instruction can lead to. -/
theorem exec_next_eq {i : Instr} {s t : State} (h : exec i s = .next t) :
    ∃ calls, t = (s.afterWrites i).dispatched calls := by
  obtain ⟨calls, hexec⟩ := exec_eq_afterWrites_dispatched i s
  rw [hexec, Host.Outcome.next.injEq] at h
  exact ⟨calls, h.symm⟩

/-! ### The columns of the write table (R24) -/

/-- Columns A and Z. -/
theorem exec_writes_a_z_or_keeps {i : Instr} {s t : State} (h : exec i s = .next t) :
    (∃ n, i = .lda n ∨ i = .add n ∨ i = .sub n ∨ i = .ldi n) ∨ (t.a = s.a ∧ t.z = s.z) := by
  obtain ⟨calls, rfl⟩ := exec_next_eq h
  cases i with
  | lda n => exact .inl ⟨n, .inl rfl⟩
  | add n => exact .inl ⟨n, .inr (.inl rfl)⟩
  | sub n => exact .inl ⟨n, .inr (.inr (.inl rfl))⟩
  | ldi n => exact .inl ⟨n, .inr (.inr (.inr rfl))⟩
  | _ => exact .inr ⟨rfl, rfl⟩

/-- Columns B and C. -/
theorem exec_writes_b_c_or_keeps {i : Instr} {s t : State} (h : exec i s = .next t) :
    (∃ n, i = .add n ∨ i = .sub n) ∨ (t.b = s.b ∧ t.c = s.c) := by
  obtain ⟨calls, rfl⟩ := exec_next_eq h
  cases i with
  | add n => exact .inl ⟨n, .inl rfl⟩
  | sub n => exact .inl ⟨n, .inr rfl⟩
  | _ => exact .inr ⟨rfl, rfl⟩

/-- Column MEM, cell by cell. -/
theorem exec_writes_cell_or_keeps {i : Instr} {s t : State} (h : exec i s = .next t) (cell : Nibble) :
    i = .sta cell ∨ t.memRead cell = s.memRead cell := by
  obtain ⟨calls, rfl⟩ := exec_next_eq h
  cases i with
  | sta n =>
    by_cases hcell : cell = n
    · exact .inl (hcell ▸ rfl)
    · exact .inr (s.memWrite_memRead_other s.a hcell)
  | _ => exact .inr rfl

/-- Column PC, as step 2 writes it. -/
theorem exec_writes_pc_or_keeps {i : Instr} {s t : State} (h : exec i s = .next t) :
    (∃ n, i = .jmp n ∨ (i = .jc n ∧ s.c = true) ∨ (i = .jz n ∧ s.z = true)) ∨ t.pc = s.pc := by
  obtain ⟨calls, rfl⟩ := exec_next_eq h
  cases i with
  | jmp n => exact .inl ⟨n, .inl rfl⟩
  | jc n =>
    by_cases hc : s.c = true
    · exact .inl ⟨n, .inr (.inl ⟨rfl, hc⟩)⟩
    · exact .inr (if_neg hc)
  | jz n =>
    by_cases hz : s.z = true
    · exact .inl ⟨n, .inr (.inr ⟨rfl, hz⟩)⟩
    · exact .inr (if_neg hz)
  | _ => exact .inr rfl

/-- Column RUN. -/
theorem exec_writes_run_or_keeps {i : Instr} {s t : State} (h : exec i s = .next t) :
    (∃ n, i = .hlt n) ∨ t.run = s.run := by
  obtain ⟨calls, rfl⟩ := exec_next_eq h
  cases i with
  | hlt n => exact .inl ⟨n, rfl⟩
  | _ => exact .inr rfl

/-! ### Step 4 after step 2 -/

@[simp] theorem State.refreshStatus_pc (s : State) : s.refreshStatus.pc = s.pc := rfl
@[simp] theorem State.refreshStatus_run (s : State) : s.refreshStatus.run = s.run := rfl

/-- The program counter after step 4 (40_engine_cycle R94). -/
theorem State.advance_pc (s : State) : s.advance.pc = if s.run = .halted then s.pc else s.pc + 1 := by
  obtain ⟨hrun, hadv⟩ | ⟨hrun, hadv⟩ := advance_cases s <;> simp [hadv, hrun]

/-- HLT does not write PC: an instruction that halts a running machine leaves PC at its own cell. -/
theorem exec_pc_of_halts {i : Instr} {s t : State} (h : exec i s = .next t) (hs : s.run = .running)
    (ht : t.run = .halted) : t.pc = s.pc := by
  have hrun : t.run ≠ s.run := by simp [hs, ht]
  obtain ⟨n, rfl⟩ := (exec_writes_run_or_keeps h).resolve_right hrun
  exact (exec_writes_pc_or_keeps h).resolve_left (by simp)

/-- Step 4 increments the PC step 2 left, unless the instruction halted the machine. -/
theorem exec_refreshStatus_advance_pc {i : Instr} {s t : State} (h : exec i s = .next t) (hs : s.run = .running) :
    t.refreshStatus.advance.pc = if t.run = .halted then s.pc else t.pc + 1 := by
  rw [State.advance_pc, State.refreshStatus_run, State.refreshStatus_pc]
  split
  · next ht => exact exec_pc_of_halts h hs ht
  · rfl

/-! ### The two flags of a value and of a sum -/

/-- `A == 0` as a decision (10_state R22). -/
theorem zeroFlag_eq_decide (v : Byte) : zeroFlag v = decide (v = 0) := rfl

/-- The carry of ADD on numbers. -/
theorem carryFlag_addSum (x y : Byte) : carryFlag (addSum x y) = decide (x.toNat + y.toNat > 0xFF) :=
  carryFlag_sum9 x y

/-- The carry of SUB on numbers. -/
theorem carryFlag_subSum (x y : Byte) : carryFlag (subSum x y) = decide (x.toNat + (255 - y.toNat) > 0xFF) := by
  rw [subSum, carryFlag_sum9, complement_toNat]

/-! ### The obligations of 10_state -/

/-- Settles O18, column by column of R24's table; what no instruction writes is `exec_keeps`. -/
theorem onlyTheTableIsWritten : Obligations.OnlyTheTableIsWritten := by
  intro i s t h
  obtain ⟨hpins, hdout, htrace, hdelays, hparams, hactive, hanswers, hpolls, hdraws, -⟩ := exec_keeps h
  have haz := exec_writes_a_z_or_keeps h
  have hbc := exec_writes_b_c_or_keeps h
  exact ⟨fun ha => haz.resolve_right fun hkeeps => ha hkeeps.1,
    fun hb => hbc.resolve_right fun hkeeps => hb hkeeps.1,
    fun hz => haz.resolve_right fun hkeeps => hz hkeeps.2,
    fun hc => hbc.resolve_right fun hkeeps => hc hkeeps.2,
    fun cell => (exec_writes_cell_or_keeps h cell).resolve_right,
    (exec_writes_pc_or_keeps h).resolve_right,
    (exec_writes_run_or_keeps h).resolve_right,
    exec_refreshStatus_advance_pc h,
    hpins, hdout, htrace, hdelays, hparams, hactive, hanswers, hpolls, hdraws⟩

/-- Settles O19: the four writers of A write Z through `zeroFlag` of the same value, and no other instruction
writes Z. -/
theorem zeroFlagFollowsTheNewA : Obligations.ZeroFlagFollowsTheNewA := by
  refine ⟨fun i s t h => ?_, rfl⟩
  obtain ⟨calls, rfl⟩ := exec_next_eq h
  cases i with
  | lda n => exact zeroFlag_eq_decide (s.memRead n)
  | add n => exact zeroFlag_eq_decide (sumResult (addSum s.a (s.memRead n)))
  | sub n => exact zeroFlag_eq_decide (sumResult (subSum s.a (s.memRead n)))
  | ldi n => exact zeroFlag_eq_decide (immOperand n)
  | _ => rfl

/-- Settles O20: ADD and SUB write C as the carry of their own 9-bit sum, and no other instruction writes C. -/
theorem carryFlagFollowsTheSum : Obligations.CarryFlagFollowsTheSum := by
  refine ⟨fun i s t h => ?_, rfl⟩
  obtain ⟨calls, rfl⟩ := exec_next_eq h
  cases i with
  | add n => exact carryFlag_addSum s.a (s.memRead n)
  | sub n => exact carryFlag_subSum s.a (s.memRead n)
  | _ => rfl

end Sys2Proof.Machine

/-! ## 30_encoding: the two fields of a cell, and the instructions that do nothing -/

namespace Sys2Proof

/-! ### The two fields of a cell (R71) -/

/-- `opcodeOf` as the source writes it. -/
theorem opcodeOf_eq_shift (cell : Byte) : opcodeOf cell = (cell >>> 4).setWidth 4 := by
  apply BitVec.eq_of_toNat_eq
  simp [opcodeOf]

/-- `operandOf` as the source writes it. -/
theorem operandOf_eq_mask (cell : Byte) : operandOf cell = (cell &&& 0xF).setWidth 4 := by
  apply BitVec.eq_of_toNat_eq
  simpa [operandOf] using (Nat.and_two_pow_sub_one_eq_mod (cell.toNat % 16) 4).symm

/-! ### The opcode map (R73) -/

/-- The row an opcode selects carries that opcode; the last arm is the one value left, 15. -/
theorem decodeFields_opcode (opcode operand : Nibble) : (decodeFields opcode operand).opcode = opcode := by
  apply BitVec.eq_of_toNat_eq
  unfold decodeFields
  split
  case h_16 =>
    have hlt := opcode.isLt
    have hlast : opcode.toNat = 15 := by simp only [imp_false] at *; omega
    exact hlast.symm
  all_goals next hrow => exact hrow.symm

/-- Every row keeps the operand field whole, also where the instruction ignores it (R75). -/
theorem decodeFields_operand (opcode operand : Nibble) : (decodeFields opcode operand).operand = operand := by
  unfold decodeFields
  split <;> rfl

/-- Each instruction is the row its own opcode selects. -/
theorem decodeFields_of_instr (i : Instr) : decodeFields i.opcode i.operand = i := by
  cases i <;> rfl

/-- A cell whose fields are those of an instruction decodes to it. -/
theorem decode_eq_of_fields {cell : Byte} {i : Instr} (hop : opcodeOf cell = i.opcode)
    (hn : operandOf cell = i.operand) : decode cell = i := by
  rw [decode, hop, hn, decodeFields_of_instr]

/-- Settles O1: the map keeps both fields, and the fields are the shift and the mask of R71. -/
theorem decodeSplitsTheCell : Obligations.DecodeSplitsTheCell := fun cell =>
  ⟨(decodeFields_opcode _ _).trans (opcodeOf_eq_shift cell), (decodeFields_operand _ _).trans (operandOf_eq_mask cell)⟩

/-- Settles O3: in each row of R79 the fields of the cell are those of the instruction. -/
theorem decodeOfTheSourceImage : Obligations.DecodeOfTheSourceImage :=
  ⟨decode_eq_of_fields rfl rfl, decode_eq_of_fields rfl rfl, decode_eq_of_fields rfl rfl, decode_eq_of_fields rfl rfl,
    decode_eq_of_fields rfl rfl, decode_eq_of_fields rfl rfl, decode_eq_of_fields rfl rfl, decode_eq_of_fields rfl rfl⟩

end Sys2Proof

namespace Sys2Proof.Machine

/-! ### The instructions that do nothing in step 2 (R74), and no trap -/

@[simp] theorem exec_nop (n : Nibble) (s : State) : exec (.nop n) s = .next s.noOperation := rfl
@[simp] theorem exec_nop9 (n : Nibble) (s : State) : exec (.nop9 n) s = .next s.noOperation := rfl
@[simp] theorem exec_nop10 (n : Nibble) (s : State) : exec (.nop10 n) s = .next s.noOperation := rfl
@[simp] theorem exec_nop11 (n : Nibble) (s : State) : exec (.nop11 n) s = .next s.noOperation := rfl
@[simp] theorem exec_nop12 (n : Nibble) (s : State) : exec (.nop12 n) s = .next s.noOperation := rfl
@[simp] theorem exec_nop13 (n : Nibble) (s : State) : exec (.nop13 n) s = .next s.noOperation := rfl

/-- No instruction faults or is refused, in any state. -/
theorem exec_answers (i : Instr) (s : State) : ∃ t, exec i s = .next t :=
  let ⟨_, hexec⟩ := exec_eq_afterWrites_dispatched i s
  ⟨_, hexec⟩

/-- Settles O4: the six NOPs all end in `State.noOperation`, and whatever a cell decodes to answers. -/
theorem unmappedOpcodesRunAsNop : Obligations.UnmappedOpcodesRunAsNop := by
  refine ⟨fun m n s => ?_, fun cell => exec_answers (decode cell)⟩
  simp only [exec_nop, exec_nop9, exec_nop10, exec_nop11, exec_nop12, exec_nop13, and_self]

end Sys2Proof.Machine

/-! ## 40_engine_cycle: the steps of a cycle, its way to the next boundary, and the halted machine -/

namespace Sys2Proof.Machine

/-! ### The Engine's own steps, row by row (R91, R93, R94, R96) -/

theorem step_dispatched {s : State} (hx : s.active = none) (hp : s.pending = []) (hs : s.stage = .dispatched) :
    step s = .next s.refreshStatus := by
  simp [step, hx, hp, hs]

theorem step_refreshed {s : State} (hx : s.active = none) (hp : s.pending = []) (hs : s.stage = .refreshed) :
    step s = .next s.advance := by
  simp [step, hx, hp, hs]

theorem step_halted {s : State} (hb : s.betweenCycles) (hrun : s.run = .halted) : step s = .next s := by
  obtain ⟨hx, hp, hs⟩ := hb
  simp [step, hx, hp, hs, hrun]

theorem step_running {s : State} (hb : s.betweenCycles) (hrun : s.run = .running) : step s = exec s.fetch s := by
  obtain ⟨hx, hp, hs⟩ := hb
  simp [step, hx, hp, hs, hrun]

/-- No step of any state faults or is refused (60_exceptions R210). -/
theorem step_answers (s : State) : ∃ t, step s = .next t := by
  cases hx : s.active with
  | some x => exact ⟨_, step_active hx⟩
  | none =>
    cases hp : s.pending with
    | cons call rest => exact ⟨_, step_call hx hp⟩
    | nil =>
      cases hs : s.stage with
      | dispatched => exact ⟨_, step_dispatched hx hp hs⟩
      | refreshed => exact ⟨_, step_refreshed hx hp hs⟩
      | fetch =>
        cases hrun : s.run with
        | halted => exact ⟨_, step_halted ⟨hx, hp, hs⟩ hrun⟩
        | running => exact step_running ⟨hx, hp, hs⟩ hrun ▸ exec_answers s.fetch s

/-- Settles O21: `State.fetch` is the decoding of the cell at PC. -/
theorem stepRunsTheFetchedInstruction : Obligations.StepRunsTheFetchedInstruction :=
  fun _ hb hrun => step_running hb hrun

/-- Settles O23: the step is `State.refreshStatus`, whose calls join an empty list. -/
theorem statusRefreshIsStepThree : Obligations.StatusRefreshIsStepThree := by
  intro s hx hp hs
  rw [step_dispatched hx hp hs, State.refreshStatus, hp, List.nil_append]

/-- Settles O24: the step is `State.advance`, in its two cases. -/
theorem advanceIsStepFour : Obligations.AdvanceIsStepFour := by
  intro s hx hp hs
  refine ⟨s.advance, step_refreshed hx hp hs, ?_⟩
  obtain ⟨hrun, hadv⟩ | ⟨hrun, hadv⟩ := advance_cases s
  · simp [hadv, hrun, BitVec.toNat_add]
  · simp [hadv, hrun]

/-! ### Several steps -/

theorem stepN_succ_of_step {s u : State} (h : step s = .next u) (k : Nat) : stepN (k + 1) s = stepN k u := by
  simp [stepN, h]

/-- A property that every step keeps is kept by any number of steps. -/
theorem stepN_preserves {P : State → Prop} (hstep : ∀ s t, step s = .next t → P s → P t) {k : Nat} {s t : State}
    (h : stepN k s = .next t) (hs : P s) : P t := by
  induction k generalizing s with
  | zero =>
    cases h
    exact hs
  | succ k ih =>
    obtain ⟨u, hu⟩ := step_answers s
    rw [stepN_succ_of_step hu] at h
    exact ih h (hstep s u hu hs)

/-! ### The halted machine (R96) -/

/-- Without RUN, step 4 writes nothing of the architecture. -/
theorem advance_arch_of_halted {s : State} (hrun : s.run = .halted) : s.advance.arch = s.arch := by
  obtain ⟨hrunning, -⟩ | ⟨-, hadv⟩ := advance_cases s
  · simp [hrun] at hrunning
  · rw [hadv]
    rfl

/-- The cycle that halted still draws and advances, but no step of it writes the architecture. -/
theorem step_arch_of_halted {s t : State} (hrun : s.run = .halted) (h : step s = .next t) : t.arch = s.arch := by
  obtain ⟨x, -, rfl⟩ | ⟨call, rest, -, -, rfl⟩ | ⟨-, -, -, rfl⟩ | ⟨-, -, -, rfl⟩ | ⟨-, -, rfl⟩ | ⟨-, hrunning, -⟩ :=
    step_cases h
  · exact (driverStep_keeps s x).1
  · exact beginCall_arch s call rest
  · exact refreshStatus_arch s
  · exact advance_arch_of_halted hrun
  · rfl
  · simp [hrun] at hrunning

/-- Settles O26: RUN is part of the architecture, so a halted machine that keeps it stays halted; between cycles its step
is to itself. -/
theorem haltedStaysFrozen : Obligations.HaltedStaysFrozen := by
  constructor
  · intro k s t hrun h
    refine stepN_preserves (P := fun u => u.arch = s.arch) (fun u v hstep hu => ?_) h rfl
    have hurun : u.run = .halted := (congrArg Arch.run hu).trans hrun
    exact (step_arch_of_halted hurun hstep).trans hu
  · intro k s hrun hb
    induction k with
    | zero => rfl
    | succ k ih => rw [stepN_succ_of_step (step_halted hb hrun), ih]

/-! ### One step of the Driver, by its phases (45_display_driver R170) -/

/-- The phase after a phase, and none when the call is over; `answer` is what the display answers if a poll is sampled. -/
def Phase.next (answer : Byte) : Phase → Option Phase
  | .pollSetup => some .pollSample
  | .pollSample => some (.pollEnd answer)
  | .pollEnd sample => some (if busy sample then .pollSetup else .turnRead)
  | .turnRead => some .turnWrite
  | .turnWrite => some .setup
  | .setup => some .pulse
  | .pulse => some .writeEnd
  | .writeEnd => some .release
  | .release => none

/-- The bus events of the step out of a phase: those at the end of an enable pulse (R171). -/
def Phase.events (call : DriverCall) (answer : Byte) : Phase → List BusEvent
  | .pollSample => [.poll answer]
  | .pulse => [call.event]
  | _ => []

@[simp] theorem State.takeAnswer_trace (s : State) : s.takeAnswer.trace = s.trace := by
  unfold State.takeAnswer
  split <;> rfl

theorem State.takeAnswer_answers (s : State) : s.takeAnswer.answers = s.answers.tail := by
  unfold State.takeAnswer
  split
  · next h => rw [h, List.tail_cons]
  · next h => rw [h, List.tail_nil]

theorem driverStep_active (s : State) (call : DriverCall) (phase : Phase) :
    (s.driverStep ⟨call, phase⟩).active = (phase.next s.nextAnswer).map (Transfer.mk call) := by
  cases phase with
  | pollEnd v => cases hv : busy v <;> simp [State.driverStep, Phase.next, hv, State.pollAgain, State.turnRound]
  | _ => rfl

theorem driverStep_trace (s : State) (call : DriverCall) (phase : Phase) :
    (s.driverStep ⟨call, phase⟩).trace = s.trace ++ phase.events call s.nextAnswer := by
  cases phase with
  | pollSample => simp [State.driverStep, Phase.events, State.pollTake]
  | pulse => simp [State.driverStep, Phase.events, State.writeTake]
  | pollEnd v => cases hv : busy v <;> simp [State.driverStep, Phase.events, hv, State.pollAgain, State.turnRound]
  | _ => exact (List.append_nil s.trace).symm

theorem driverStep_answers (s : State) (call : DriverCall) (phase : Phase) :
    (s.driverStep ⟨call, phase⟩).answers = if phase = .pollSample then s.answers.tail else s.answers := by
  cases phase with
  | pollSample => exact s.takeAnswer_answers
  | pollEnd v => cases hv : busy v <;> simp [State.driverStep, hv, State.pollAgain, State.turnRound]
  | _ => rfl

/-! ### What a cycle comes to is fixed once step 2 is done (R97) -/

@[simp] theorem writesOf_append (xs ys : List BusEvent) : writesOf (xs ++ ys) = writesOf xs ++ writesOf ys :=
  List.filter_append xs ys

@[simp] theorem writesOf_nil : writesOf [] = [] := rfl

@[simp] theorem writesOf_poll (v : Byte) : writesOf [.poll v] = [] := rfl

@[simp] theorem writesOf_event (call : DriverCall) : writesOf [call.event] = [call.event] := by
  cases call <;> rfl

/-- A Driver step keeps the promise: the one phase that emits the write is the one that takes it off the calls left. -/
theorem driverStep_promisedWrites {s : State} {x : Transfer} (hx : s.active = some x) :
    (s.driverStep x).promisedWrites = s.promisedWrites := by
  obtain ⟨call, phase⟩ := x
  obtain ⟨-, -, -, hpending⟩ := driverStep_keeps s ⟨call, phase⟩
  simp only [State.promisedWrites, State.callsLeft, driverStep_active, driverStep_trace, hpending, hx]
  cases phase with
  | pollEnd v => cases hv : busy v <;> simp [Phase.next, Phase.events, Phase.written, hv]
  | _ => simp [Phase.next, Phase.events, Phase.written]

/-- What a cycle comes to depends on the place in the cycle, the architecture, the parameters and the promised writes. -/
theorem cycleResult_congr {s t : State} (harch : t.arch = s.arch) (hparams : t.params = s.params)
    (hstage : t.stage = s.stage) (hwrites : t.promisedWrites = s.promisedWrites) : t.cycleResult = s.cycleResult := by
  have hpc : t.pc = s.pc := congrArg Arch.pc harch
  have hz : t.z = s.z := congrArg Arch.z harch
  have hc : t.c = s.c := congrArg Arch.c harch
  simp only [State.cycleResult, harch, hparams, hstage, hwrites, hpc, hz, hc]

theorem driverStep_cycleResult {s : State} {x : Transfer} (hx : s.active = some x) :
    (s.driverStep x).cycleResult = s.cycleResult := by
  obtain ⟨harch, hparams, hstage, -⟩ := driverStep_keeps s x
  exact cycleResult_congr harch hparams hstage (driverStep_promisedWrites hx)

theorem beginCall_cycleResult {s : State} {call : DriverCall} {rest : List DriverCall} (hx : s.active = none)
    (hp : s.pending = call :: rest) : (s.beginCall call rest).cycleResult = s.cycleResult := by
  refine cycleResult_congr rfl rfl rfl ?_
  simp [State.promisedWrites, State.callsLeft, State.beginCall, Phase.written, hx, hp]

/-- Step 3 makes the calls that the cycle was to make. -/
theorem refreshStatus_cycleResult {s : State} (hx : s.active = none) (hs : s.stage = .dispatched) :
    s.refreshStatus.cycleResult = s.cycleResult := by
  simp [State.cycleResult, State.refreshStatus, State.promisedWrites, State.callsLeft, State.arch, hx, hs]

/-- Step 4 on the architecture alone. -/
theorem advance_arch (s : State) : s.advance.arch = s.arch.advance := by
  obtain ⟨hrun, hadv⟩ | ⟨hrun, hadv⟩ := advance_cases s
  · rw [hadv]
    simp only [State.arch, Arch.advance, hrun, Arch.mk.injEq, true_and, and_true]
    apply BitVec.eq_of_toNat_eq
    simp [BitVec.toNat_add]
  · rw [hadv]
    simp [State.arch, Arch.advance, hrun]

/-- Step 4 does what the cycle was to do, and leaves nothing to draw. -/
theorem advance_cycleResult {s : State} (hs : s.stage = .refreshed) : s.advance.cycleResult = s.cycleResult := by
  have hwrites : s.advance.promisedWrites = s.promisedWrites ∧ s.advance.stage = .fetch := by
    obtain ⟨-, hadv⟩ | ⟨-, hadv⟩ := advance_cases s <;> rw [hadv] <;> exact ⟨rfl, rfl⟩
  simp [State.cycleResult, hs, hwrites, advance_arch]

/-- Inside a cycle no step changes what the cycle comes to. -/
theorem step_cycleResult {s t : State} (hin : ¬ s.betweenCycles) (h : step s = .next t) :
    t.cycleResult = s.cycleResult := by
  obtain ⟨x, hx, rfl⟩ | ⟨call, rest, hx, hp, rfl⟩ | ⟨hx, -, hs, rfl⟩ | ⟨-, -, hs, rfl⟩ | ⟨hb, -⟩ | ⟨hb, -⟩ :=
    step_cases h
  · exact driverStep_cycleResult hx
  · exact beginCall_cycleResult hx hp
  · exact refreshStatus_cycleResult hx hs
  · exact advance_cycleResult hs
  · exact absurd hb hin
  · exact absurd hb hin

/-- Once step 2 is done, step 4 alone decides what the architecture comes to. -/
theorem cycleResult_arch_of_dispatched {s : State} (hs : s.stage = .dispatched) :
    s.cycleResult.1 = s.arch.advance := by
  simp [State.cycleResult, hs]

/-- At a boundary the cycle has come to what it comes to. -/
theorem cycleResult_of_betweenCycles {s : State} (hb : s.betweenCycles) :
    s.cycleResult = (s.arch, writesOf s.trace) := by
  obtain ⟨hx, hp, hs⟩ := hb
  simp [State.cycleResult, State.promisedWrites, State.callsLeft, hx, hp, hs]

/-! ### With enough ready answers a cycle ends (R98) -/

/-- Most steps a call can still take from a phase, the answers being counted apart: a poll taken uses one up. -/
def Phase.stepBound : Phase → Nat
  | .pollSetup => 8
  | .pollSample => 7
  | .pollEnd _ => 9
  | .turnRead => 6
  | .turnWrite => 5
  | .setup => 4
  | .pulse => 3
  | .writeEnd => 2
  | .release => 1

/-- Most steps the Engine's own stages and the six calls of the status refresh still ask for. -/
def Stage.stepBound : Stage → Nat
  | .dispatched => 56
  | .refreshed => 1
  | .fetch => 0

/-- A bound on the steps to the boundary, as long as each poll is answered from the script. -/
def State.stepBound (s : State) : Nat :=
  3 * s.answers.length + (s.active.elim 0 fun x => x.phase.stepBound) + 9 * s.pending.length + s.stage.stepBound

/-- The script holds a ready answer for each ready poll the cycle still needs. -/
def State.enoughReady (s : State) : Prop := s.readyPollsLeft ≤ readyAnswers s.answers

theorem readyAnswers_cons_busy {v : Byte} (h : busy v = true) (rest : List Byte) :
    readyAnswers (v :: rest) = readyAnswers rest := by
  simp [readyAnswers, h]

theorem readyAnswers_cons_ready {v : Byte} (h : busy v = false) (rest : List Byte) :
    readyAnswers (v :: rest) = readyAnswers rest + 1 := by
  simp [readyAnswers, h]

/-- A Driver step comes nearer to the boundary: a busy answer sends the call back to a phase with a higher bound, but it
is one answer less. -/
theorem driverStep_progress {s : State} {x : Transfer} (hx : s.active = some x) (hready : s.enoughReady) :
    (s.driverStep x).enoughReady ∧ (s.driverStep x).stepBound < s.stepBound := by
  obtain ⟨call, phase⟩ := x
  obtain ⟨-, -, hstage, hpending⟩ := driverStep_keeps s ⟨call, phase⟩
  simp only [State.enoughReady, State.readyPollsLeft, State.stepBound, driverStep_active, driverStep_answers, hstage,
    hpending, hx] at hready ⊢
  cases phase with
  | pollSample =>
    cases ha : s.answers with
    | nil => simp [ha, readyAnswers, Phase.sawReady] at hready
    | cons v rest =>
      cases hv : busy v
      · simp only [ha, hv, readyAnswers_cons_ready, Phase.sawReady, Phase.next, Phase.stepBound, State.nextAnswer,
          Option.map_some, Option.elim_some, List.tail_cons, List.length_cons, Bool.not_false, Bool.false_eq_true,
          ↓reduceIte] at hready ⊢
        omega
      · simp only [ha, hv, readyAnswers_cons_busy, Phase.sawReady, Phase.next, Phase.stepBound, State.nextAnswer,
          Option.map_some, Option.elim_some, List.tail_cons, List.length_cons, Bool.not_true, Bool.false_eq_true,
          ↓reduceIte] at hready ⊢
        omega
  | pollEnd v =>
    cases hv : busy v <;> simpa [Phase.next, Phase.sawReady, Phase.stepBound, hv] using hready
  | _ => simpa [Phase.next, Phase.sawReady, Phase.stepBound] using hready

theorem beginCall_progress {s : State} {call : DriverCall} {rest : List DriverCall} (hx : s.active = none)
    (hp : s.pending = call :: rest) (hready : s.enoughReady) :
    (s.beginCall call rest).enoughReady ∧ (s.beginCall call rest).stepBound < s.stepBound := by
  simp only [State.enoughReady, State.readyPollsLeft, State.stepBound, State.beginCall, Phase.sawReady, Phase.stepBound,
    hx, hp, List.length_cons, Option.elim_none, Option.elim_some, Bool.false_eq_true, ↓reduceIte] at hready ⊢
  omega

@[simp] theorem showStatus_length (params : Params) (pc : Nibble) (z c : Bool) :
    (showStatus params pc z c).length = 6 := rfl

theorem refreshStatus_progress {s : State} (hs : s.stage = .dispatched) (hready : s.enoughReady) :
    s.refreshStatus.enoughReady ∧ s.refreshStatus.stepBound < s.stepBound := by
  simp only [State.enoughReady, State.readyPollsLeft, State.stepBound, State.refreshStatus, Stage.stepBound, hs,
    List.length_append, showStatus_length] at hready ⊢
  omega

theorem advance_progress {s : State} (hs : s.stage = .refreshed) (hready : s.enoughReady) :
    s.advance.enoughReady ∧ s.advance.stepBound < s.stepBound := by
  obtain ⟨-, hadv⟩ | ⟨-, hadv⟩ := advance_cases s <;> rw [hadv] <;>
    simpa [State.enoughReady, State.readyPollsLeft, State.stepBound, Stage.stepBound, hs] using hready

/-- Inside a cycle every step comes nearer to the boundary, and uses up no ready answer it does not need. -/
theorem step_progress {s t : State} (hin : ¬ s.betweenCycles) (hready : s.enoughReady) (h : step s = .next t) :
    t.enoughReady ∧ t.stepBound < s.stepBound := by
  obtain ⟨x, hx, rfl⟩ | ⟨call, rest, hx, hp, rfl⟩ | ⟨-, -, hs, rfl⟩ | ⟨-, -, hs, rfl⟩ | ⟨hb, -⟩ | ⟨hb, -⟩ :=
    step_cases h
  · exact driverStep_progress hx hready
  · exact beginCall_progress hx hp hready
  · exact refreshStatus_progress hs hready
  · exact advance_progress hs hready
  · exact absurd hb hin
  · exact absurd hb hin

/-! ### The next boundary -/

/-- A step onto a boundary reaches it. -/
theorem ReachesBoundary.of_step {s t : State} (h : step s = .next t) (hb : t.betweenCycles) : ReachesBoundary s 1 t :=
  ⟨Nat.one_pos, stepN_succ_of_step h 0, hb, fun _ _ h0 h1 _ => by omega⟩

/-- A step into the cycle has the boundary of the state it leads to, one step later. -/
theorem ReachesBoundary.of_step_inside {s u t : State} {k : Nat} (h : step s = .next u) (hin : ¬ u.betweenCycles)
    (hreach : ReachesBoundary u k t) : ReachesBoundary s (k + 1) t := by
  obtain ⟨-, hrun, hb, hfirst⟩ := hreach
  refine ⟨k.succ_pos, by rw [stepN_succ_of_step h, hrun], hb, fun j v h0 hj hv => ?_⟩
  obtain _ | j := j
  · exact absurd h0 (lt_irrefl 0)
  · rw [stepN_succ_of_step h] at hv
    obtain _ | j := j
    · cases hv
      exact hin
    · exact hfirst (j + 1) v j.succ_pos (Nat.lt_of_succ_lt_succ hj) hv

/-- From inside a cycle with enough ready answers the next boundary is reached, with what the cycle comes to; by
induction on the bound of the steps left. -/
theorem exists_reachesBoundary_of_enoughReady {s : State} (hin : ¬ s.betweenCycles) (hready : s.enoughReady) :
    ∃ k t, ReachesBoundary s k t ∧ t.cycleResult = s.cycleResult := by
  induction hn : s.stepBound using Nat.strong_induction_on generalizing s with
  | _ n ih =>
    obtain ⟨u, hu⟩ := step_answers s
    have hresult := step_cycleResult hin hu
    by_cases hb : u.betweenCycles
    · exact ⟨1, u, .of_step hu hb, hresult⟩
    · obtain ⟨huready, hless⟩ := step_progress hin hready hu
      obtain ⟨k, t, hreach, ht⟩ := ih u.stepBound (hn ▸ hless) hb huready rfl
      exact ⟨k + 1, t, .of_step_inside hu hb hreach, ht.trans hresult⟩

/-- The whole cycle from a boundary: where the instruction leads to `u`, and each call it made and each of the six of the
status refresh has a ready answer, the next boundary has what `u` comes to. -/
theorem exists_reachesBoundary_of_exec {s u : State} (hb : s.betweenCycles) (hrun : s.run = .running)
    (hexec : exec s.fetch s = .next u) (hready : u.pending.length + 6 ≤ readyAnswers s.answers) :
    ∃ k t, ReachesBoundary s k t ∧ (t.arch, writesOf t.trace) = u.cycleResult := by
  obtain ⟨-, -, -, -, -, hactive, hanswers, -, -, hstage⟩ := exec_keeps hexec
  have hin : ¬ u.betweenCycles := fun ⟨_, _, hu⟩ => by simp [hstage] at hu
  have huready : u.enoughReady := by
    simpa [State.enoughReady, State.readyPollsLeft, hactive, hb.1, hanswers, hstage] using hready
  obtain ⟨k, t, hreach, ht⟩ := exists_reachesBoundary_of_enoughReady hin huready
  have ⟨_, _, htb, _⟩ := hreach
  exact ⟨k + 1, t, .of_step_inside ((step_running hb hrun).trans hexec) hin hreach,
    (cycleResult_of_betweenCycles htb).symm.trans ht⟩

/-! ### The jumps (R95) -/

/-- Step 4 of a running machine, on numbers. -/
theorem Arch.advance_of_running {t : Arch} (hrun : t.run = .running) :
    t.advance.run = .running ∧ t.advance.pc.toNat = (t.pc.toNat + 1) % 16 := by
  simp [Arch.advance, hrun]

/-- A jump, taken or not, resumes one past the PC that step 2 left. -/
theorem exists_reachesBoundary_of_jumpIf {s : State} {taken : Bool} {n : Nibble} (hb : s.betweenCycles)
    (hrun : s.run = .running) (hexec : exec s.fetch s = .next (s.jumpIf taken n))
    (hready : 6 ≤ readyAnswers s.answers) :
    ∃ k t, ReachesBoundary s k t ∧ t.run = .running ∧
      t.pc.toNat = ((if taken = true then n else s.pc).toNat + 1) % 16 := by
  have hjump := s.jumpIf_eq taken n
  have ⟨_, hp, _⟩ := hb
  obtain ⟨k, t, hreach, ht⟩ := exists_reachesBoundary_of_exec hb hrun hexec (by simpa [hjump, hp] using hready)
  have harch : t.arch = (s.jumpIf taken n).arch.advance :=
    (congrArg Prod.fst ht).trans (cycleResult_arch_of_dispatched (by rw [hjump]))
  have hjrun : (s.jumpIf taken n).arch.run = .running := by rw [hjump]; exact hrun
  have hjpc : (s.jumpIf taken n).arch.pc = if taken = true then n else s.pc := by rw [hjump]; rfl
  obtain ⟨hadvrun, hadvpc⟩ := Arch.advance_of_running hjrun
  rw [← harch] at hadvrun hadvpc
  rw [hjpc] at hadvpc
  exact ⟨k, t, hreach, hadvrun, hadvpc⟩

/-- Settles O25: each of the three jumps is `State.jumpIf` of its condition. -/
theorem takenJumpResumesOnePastItsOperand : Obligations.TakenJumpResumesOnePastItsOperand := by
  intro s n hb hrun hready
  have resumes {taken : Bool} (hexec : exec s.fetch s = .next (s.jumpIf taken n)) :=
    exists_reachesBoundary_of_jumpIf hb hrun hexec hready
  constructor
  · rintro (hf | ⟨hf, hc⟩ | ⟨hf, hz⟩)
    · exact resumes (taken := true) (by rw [hf]; rfl)
    · exact resumes (taken := true) (by rw [hf, ← hc]; rfl)
    · exact resumes (taken := true) (by rw [hf, ← hz]; rfl)
  · rintro (⟨hf, hc⟩ | ⟨hf, hz⟩)
    · exact resumes (taken := false) (by rw [hf, ← hc]; rfl)
    · exact resumes (taken := false) (by rw [hf, ← hz]; rfl)

end Sys2Proof.Machine

/-! ## 41_load_store: LDA, STA and LDI -/

namespace Sys2Proof

/-! ### The cell of an instruction -/

/-- An instruction is read back from its own cell: the cell holds its two fields, and they select it (30_encoding R78). -/
theorem decode_encode (i : Instr) : decode (encode i) = i :=
  have ⟨hop, hn⟩ := Laws.EncodingFields.fields_of_join i.opcode i.operand
  decode_eq_of_fields hop hn

end Sys2Proof

namespace Sys2Proof.Machine

/-! ### What step 2 of the three instructions does -/

theorem exec_lda (n : Nibble) (s : State) :
    exec (.lda n) s = .next ((s.loadA (s.memRead n)).dispatched (showA (s.memRead n))) := rfl

theorem exec_sta (n : Nibble) (s : State) : exec (.sta n) s = .next ((s.memWrite n s.a).dispatched []) := rfl

theorem exec_ldi (n : Nibble) (s : State) :
    exec (.ldi n) s = .next ((s.loadA (immOperand n)).dispatched (showA (immOperand n))) := rfl

/-- A load of A with its drawing writes A, Z, the calls and the place in the cycle, and nothing else. -/
theorem State.loadA_dispatched_eq (s : State) (v : Byte) (calls : List DriverCall) :
    (s.loadA v).dispatched calls =
      { s with a := v, z := decide (v = 0), pending := s.pending ++ calls, stage := .dispatched } := by
  simp only [dispatched, loadA, writeA, writeZ, zeroFlag_eq_decide]

/-- A store with nothing to draw writes memory and the place in the cycle, and nothing else. -/
theorem State.memWrite_dispatched_nil_eq (s : State) (n : Nibble) (v : Byte) :
    (s.memWrite n v).dispatched [] = { s with mem := (s.memWrite n v).mem, stage := .dispatched } := by
  simp only [dispatched, memWrite, List.append_nil]

/-- Making Formatter calls changes no cell. -/
@[simp] theorem State.dispatched_memRead (s : State) (calls : List DriverCall) (n : Nibble) :
    (s.dispatched calls).memRead n = s.memRead n := rfl

/-! ### The immediate operand on numbers (R112) -/

/-- Zero extension keeps the number. -/
theorem immOperand_eq_ofNat (n : Nibble) : immOperand n = BitVec.ofNat 8 n.toNat := by
  rw [← immOperand_toNat, BitVec.ofNat_toNat, BitVec.setWidth_eq]

/-- Zero extension makes no other operand zero. -/
theorem immOperand_eq_zero_iff (n : Nibble) : immOperand n = 0 ↔ n = 0 := by
  rw [← BitVec.toNat_inj, ← BitVec.toNat_inj, immOperand_toNat]
  rfl

/-! ### The obligations of 41_load_store -/

/-- Settles O7: LDA is a load of A with the cell its operand names. -/
theorem ldaLoadsTheCell : Obligations.LdaLoadsTheCell := by
  intro n s
  have hcell : decode (0x10 ||| n.setWidth 8) = .lda n := decode_encode (.lda n)
  exact ⟨hcell, by rw [exec_lda, State.loadA_dispatched_eq]⟩

/-- Settles O8: STA is one `State.memWrite`, which the two read-after-write laws of memory describe cell by cell. -/
theorem staStoresOneCell : Obligations.StaStoresOneCell := by
  intro n s
  have hcell : decode (0x40 ||| n.setWidth 8) = .sta n := decode_encode (.sta n)
  refine ⟨hcell, _, exec_sta n s, ?named, fun other hother => ?others, ?frame⟩
  case named => rw [State.dispatched_memRead, State.memWrite_memRead_same]
  case others => rw [State.dispatched_memRead, State.memWrite_memRead_other s s.a hother]
  case frame => exact s.memWrite_dispatched_nil_eq n s.a

/-- Settles O9: LDI is a load of A with the immediate operand, which is the operand's number and is 0 only when that
is. -/
theorem ldiLoadsTheOperand : Obligations.LdiLoadsTheOperand := by
  intro n s
  have hcell : decode (0x50 ||| n.setWidth 8) = .ldi n := decode_encode (.ldi n)
  refine ⟨hcell, ?_⟩
  simp only [exec_ldi, State.loadA_dispatched_eq, immOperand_eq_zero_iff]
  rw [immOperand_eq_ofNat]

end Sys2Proof.Machine

/-! ## 43_control: the NOPs, the jumps and HLT -/

namespace Sys2Proof.Machine

/-! ### What step 2 of the jumps and of HLT does -/

theorem exec_jmp (n : Nibble) (s : State) : exec (.jmp n) s = .next (s.jumpIf true n) := rfl
theorem exec_jc (n : Nibble) (s : State) : exec (.jc n) s = .next (s.jumpIf s.c n) := rfl
theorem exec_jz (n : Nibble) (s : State) : exec (.jz n) s = .next (s.jumpIf s.z n) := rfl
theorem exec_hlt (n : Nibble) (s : State) : exec (.hlt n) s = .next (s.halt.dispatched []) := rfl

/-- Halting with nothing to draw writes RUN and the place in the cycle, and nothing else. -/
theorem State.halt_dispatched_nil_eq (s : State) :
    s.halt.dispatched [] = { s with run := .halted, stage := .dispatched } := by
  simp only [dispatched, halt, List.append_nil]

/-! ### Steps 3 and 4 after them -/

/-- Step 4 adds one to the PC a jump left, taken or not (40_engine_cycle R95). -/
theorem State.jumpIf_refreshStatus_advance_pc {s : State} (taken : Bool) (n : Nibble) (hrun : s.run = .running) :
    (s.jumpIf taken n).refreshStatus.advance.pc = if taken = true then n + 1 else s.pc + 1 := by
  have hstays : (s.jumpIf taken n).run ≠ .halted := by simp [jumpIf_eq, hrun]
  rw [advance_pc, refreshStatus_run, if_neg hstays, refreshStatus_pc, jumpIf_eq, apply_ite (· + 1)]

/-- Step 4 of a halted machine moves on to the next boundary: no increment and no delay (R94). -/
theorem State.advance_of_halted {s : State} (hrun : s.run = .halted) : s.advance = { s with stage := .fetch } := by
  obtain ⟨hrunning, -⟩ | ⟨-, hadv⟩ := advance_cases s
  · simp [hrun] at hrunning
  · exact hadv

/-! ### The obligations of 43_control -/

/-- Settles O6: each of the six NOPs is `State.noOperation`, which moves the stage alone. -/
theorem nopsChangeNothing : Obligations.NopsChangeNothing := by
  intro n s
  simp only [exec_nop, exec_nop9, exec_nop10, exec_nop11, exec_nop12, exec_nop13, State.noOperation_eq, and_true]
  exact ⟨decode_encode (.nop n), decode_encode (.nop9 n), decode_encode (.nop10 n), decode_encode (.nop11 n),
    decode_encode (.nop12 n), decode_encode (.nop13 n)⟩

/-- Settles O13: JMP is the jump that is always taken, so step 3 draws the operand and step 4 adds one to it. -/
theorem jmpWritesPc : Obligations.JmpWritesPc := by
  intro n s
  have hframe : s.jumpIf true n = { s with pc := n, stage := .dispatched } := s.jumpIf_eq true n
  refine ⟨decode_encode (.jmp n), _, exec_jmp n s, hframe, ?status, ?resume⟩
  case status => rw [hframe, State.refreshStatus]
  case resume => exact State.jumpIf_refreshStatus_advance_pc true n

/-- Settles O14: JC is the jump on C. -/
theorem jcWritesPcOnCarry : Obligations.JcWritesPcOnCarry := fun n s =>
  ⟨decode_encode (.jc n), _, exec_jc n s, s.jumpIf_eq s.c n, State.jumpIf_refreshStatus_advance_pc s.c n⟩

/-- Settles O15: JZ is the jump on Z as the state holds it. -/
theorem jzWritesPcOnZero : Obligations.JzWritesPcOnZero := fun n s =>
  ⟨decode_encode (.jz n), _, exec_jz n s, s.jumpIf_eq s.z n, State.jumpIf_refreshStatus_advance_pc s.z n⟩

/-- Settles O17: HLT writes RUN alone, and after the status refresh step 4 finds the machine halted. -/
theorem hltHalts : Obligations.HltHalts := by
  intro n s
  refine ⟨decode_encode (.hlt n), _, exec_hlt n s, s.halt_dispatched_nil_eq, ?_⟩
  rw [s.halt_dispatched_nil_eq, State.advance_of_halted rfl, State.refreshStatus]

end Sys2Proof.Machine

/-! ## 44_output: OUT -/

namespace Sys2Proof.Machine

/-! ### What step 2 of OUT does -/

theorem exec_out (n : Nibble) (s : State) : exec (.out n) s = .next (s.dispatched (showOutput s.a)) := rfl

/-! ### The calls of the two fields (46_display_formatter R195 to R197) -/

/-- The output field's address 0x4D, as the command that sets the cursor there. -/
theorem showOutput_eq_cons (v : Byte) : showOutput v = .writeCommand 0xCD :: (dec3 v).map .writeChar := rfl

/-- The status field's address 0x0A, as the command that sets the cursor there. -/
theorem showStatus_eq_cons (params : Params) (pc : Nibble) (z c : Bool) :
    showStatus params pc z c = .writeCommand 0x8A :: List.map .writeChar
      [ascii 'P', ascii '=', statusDigit params pc, if z then ascii 'Z' else ascii ' ',
        if c then ascii 'C' else ascii ' '] := rfl

/-- A decimal of one or two digits is padded with spaces to the width of one of three (R192). -/
@[simp] theorem dec3_length (v : Byte) : (dec3 v).length = 3 := by
  unfold dec3
  split
  case isTrue => rfl
  case isFalse => split <;> rfl

/-! ### The obligation of 44_output -/

/-- Settles O16: step 2 of OUT is `State.dispatched` with the calls of one output field, and step 3 draws one status
field. -/
theorem outShowsTheAccumulator : Obligations.OutShowsTheAccumulator := fun n s =>
  ⟨decode_encode (.out n), exec_out n s, showOutput_eq_cons s.a, dec3_length s.a,
    _, showStatus_eq_cons s.params s.pc s.z s.c, rfl⟩

end Sys2Proof.Machine

/-! ## 45_display_driver: a busy display is waited for -/

namespace Sys2Proof.Machine

/-! ### Several steps in two parts -/

theorem stepN_add_of_stepN {s u : State} {j : Nat} (h : stepN j s = .next u) (k : Nat) :
    stepN (j + k) s = stepN k u := by
  induction j generalizing s with
  | zero =>
    cases h
    rw [Nat.zero_add]
  | succ j ih =>
    obtain ⟨t, ht⟩ := step_answers s
    rw [stepN_succ_of_step ht] at h
    rw [Nat.succ_add, stepN_succ_of_step ht, ih h]

/-! ### One poll iteration of `awaitReady` (R163) -/

/-- The pins at the set-up of a poll that an iteration moves: the row "poll" of R170 with E low. -/
theorem pins_of_pollSetup {s : State} {call : DriverCall} (hx : s.active = some ⟨call, .pollSetup⟩)
    (hpins : s.pinsMatch) : s.rs = .low ∧ s.rw = .read ∧ s.e = .deasserted := by
  have hrow : s.pins = phasePins call .pollSetup := by
    simp only [State.pinsMatch, hx] at hpins
    exact hpins.1
  exact ⟨congrArg PinRow.rs hrow, congrArg PinRow.rw hrow, congrArg PinRow.e hrow⟩

/-- A scripted poll samples the first answer and takes no other. -/
theorem State.pollTake_of_answers {s : State} {v : Byte} {rest : List Byte} (ha : s.answers = v :: rest)
    (call : DriverCall) :
    s.pollTake call = { s with
      e := .deasserted
      answers := rest
      trace := s.trace ++ [.poll v]
      active := some ⟨call, .pollEnd v⟩ } := by
  simp only [pollTake, takeAnswer, nextAnswer, ha, emit, toPhase]

/-- A busy sample sends the Driver round the loop once more. -/
theorem driverStep_pollEnd_of_busy (s : State) (call : DriverCall) {v : Byte} (hv : busy v = true) :
    s.driverStep ⟨call, .pollEnd v⟩ = s.pollAgain call := if_pos hv

/-- An iteration of the loop is three steps, and a busy answer brings the machine back to where it began: the pulse raises E
and the sample drops it again, and RS and RW are set to the levels they have. -/
theorem stepN_three_of_busy_answer {s : State} {call : DriverCall} {v : Byte} {rest : List Byte}
    (hx : s.active = some ⟨call, .pollSetup⟩) (hpins : s.pinsMatch) (ha : s.answers = v :: rest)
    (hv : busy v = true) :
    stepN 3 s = .next { s with answers := rest, trace := s.trace ++ [.poll v] } := by
  obtain ⟨hrs, hrw, he⟩ := pins_of_pollSetup hx hpins
  have hsetup : step s = .next (s.pollPulse call) := step_active hx
  have hsample : step (s.pollPulse call) = .next ((s.pollPulse call).pollTake call) :=
    step_active (x := ⟨call, .pollSample⟩) rfl
  have hend : step ((s.pollPulse call).pollTake call) = .next (((s.pollPulse call).pollTake call).pollAgain call) := by
    rw [State.pollTake_of_answers (s := s.pollPulse call) ha, step_active rfl, driverStep_pollEnd_of_busy _ call hv]
  rw [stepN_succ_of_step hsetup, stepN_succ_of_step hsample, stepN_succ_of_step hend, stepN,
    State.pollTake_of_answers (s := s.pollPulse call) ha]
  simp only [State.pollPulse, State.pollAgain, State.toPhase, ← hrs, ← hrw, ← he, ← hx]

/-- Taking answers and recording polls moves no pin. -/
theorem State.pinsMatch_with_answers_trace (s : State) (answers : List Byte) (trace : List BusEvent) :
    ({ s with answers := answers, trace := trace } : State).pinsMatch ↔ s.pinsMatch := Iff.rfl

/-! ### The obligation of 45_display_driver -/

/-- Settles O37, by induction on the busy answers: each is one iteration, which comes back to a poll that stands as the
first did. -/
theorem busyAnswersAreWaitedOut : Obligations.BusyAnswersAreWaitedOut := by
  intro s call waits rest hx hpins ha hbusy
  induction waits generalizing s with
  | nil =>
    rw [List.nil_append] at ha
    rw [← ha, List.map_nil, List.append_nil]
    rfl
  | cons v waits ih =>
    obtain ⟨hv, hwaits⟩ := List.forall_mem_cons.mp hbusy
    have hround := stepN_three_of_busy_answer hx hpins (rest := waits ++ rest) ha hv
    have hwaiting := (s.pinsMatch_with_answers_trace (waits ++ rest) (s.trace ++ [.poll v])).mpr hpins
    have hrounds := ih { s with answers := waits ++ rest, trace := s.trace ++ [.poll v] } hx hwaiting rfl hwaits
    rw [List.length_cons, Nat.mul_succ, Nat.add_comm, stepN_add_of_stepN hround, hrounds, List.map_cons,
      List.append_assoc, List.singleton_append]

end Sys2Proof.Machine

/-! ## 46_display_formatter: the decimal of a byte -/

namespace Sys2Proof.Machine

/-! ### The three widths of a decimal (R192) -/

theorem dec3_of_three_digits {v : Byte} (hv : 99 < v.toNat) :
    dec3 v = [decDigit (v.toNat / 100), decDigit (v.toNat / 10 % 10), decDigit (v.toNat % 10)] := if_pos hv

theorem dec3_of_two_digits {v : Byte} (hlow : 9 < v.toNat) (hhigh : v.toNat ≤ 99) :
    dec3 v = [ascii ' ', decDigit (v.toNat / 10), decDigit (v.toNat % 10)] :=
  (if_neg hhigh.not_gt).trans (if_pos hlow)

theorem dec3_of_one_digit {v : Byte} (hv : v.toNat ≤ 9) : dec3 v = [ascii ' ', ascii ' ', decDigit v.toNat] :=
  (if_neg (by omega)).trans (if_neg hv.not_gt)

/-- The three widths in one equation: a cell holds its digit, or a space where that digit and all before it are 0. -/
theorem dec3_eq_padded_digits (v : Byte) :
    dec3 v = [if v.toNat / 100 = 0 then ascii ' ' else decDigit (v.toNat / 100),
      if v.toNat / 100 = 0 ∧ v.toNat / 10 % 10 = 0 then ascii ' ' else decDigit (v.toNat / 10 % 10),
      decDigit (v.toNat % 10)] := by
  obtain hone | htwo | hthree : v.toNat ≤ 9 ∨ (9 < v.toNat ∧ v.toNat ≤ 99) ∨ 99 < v.toNat := by omega
  case inl =>
    have hhundreds : v.toNat / 100 = 0 := by omega
    have htens : v.toNat / 10 % 10 = 0 := by omega
    have hunits : v.toNat % 10 = v.toNat := by omega
    rw [dec3_of_one_digit hone, if_pos hhundreds, if_pos ⟨hhundreds, htens⟩, hunits]
  case inr.inl =>
    obtain ⟨hlow, hhigh⟩ := htwo
    have hhundreds : v.toNat / 100 = 0 := by omega
    have htens : v.toNat / 10 % 10 = v.toNat / 10 := by omega
    have hpadded : ¬ (v.toNat / 100 = 0 ∧ v.toNat / 10 % 10 = 0) := by omega
    rw [dec3_of_two_digits hlow hhigh, if_pos hhundreds, if_neg hpadded, htens]
  case inr.inr =>
    have hhundreds : v.toNat / 100 ≠ 0 := by omega
    rw [dec3_of_three_digits hthree, if_neg hhundreds, if_neg fun hzero => hhundreds hzero.1]

/-! ### The obligation of 46_display_formatter -/

/-- Settles O48: division by 100 and by 10 gives the three digits, and `dec3_eq_padded_digits` places them. -/
theorem decimalFieldReadsBack : Obligations.DecimalFieldReadsBack := by
  refine ⟨⟨rfl, rfl, rfl, rfl⟩, fun v => ?_⟩
  have hbyte : v.toNat < 256 := v.isLt
  have hrecompose : v.toNat = 100 * (v.toNat / 100) + 10 * (v.toNat / 10 % 10) + v.toNat % 10 := by omega
  exact ⟨v.toNat / 100, v.toNat / 10 % 10, v.toNat % 10, by omega, Nat.mod_lt _ (by decide), Nat.mod_lt _ (by decide),
    hrecompose, dec3_eq_padded_digits v⟩

end Sys2Proof.Machine

/-! ## 60_exceptions: no fault outcome (R210) -/

namespace Sys2Proof.Machine

/-- Settles O32: `step_answers` goes through the Driver's call, the waiting call and the cycle's stages; `Fault` has no
constructor. -/
theorem everyStepAnswers : Obligations.EveryStepAnswers :=
  ⟨step_answers, fun fault => nomatch fault⟩

end Sys2Proof.Machine

/-! ## 70_reset_and_hazards: SUB is one less than a subtraction (R235) -/

namespace Sys2Proof.Machine

/-! ### The sum with the complement, as a subtraction -/

theorem subSum_toNat (x y : Byte) : (subSum x y).toNat = x.toNat + (255 - y.toNat) := by
  rw [subSum, sum9_toNat, complement_toNat]

/-- Adding the complement without a carry-in leaves the difference one short: 255 - B is -B - 1 modulo 256. -/
theorem sumResult_subSum (x y : Byte) : sumResult (subSum x y) = x - y - 1 := by
  apply BitVec.eq_of_toNat_eq
  have hx := x.isLt
  have hy := y.isLt
  have hone : (1 : Byte).toNat = 1 := rfl
  simp only [sumResult, BitVec.toNat_setWidth, subSum_toNat, BitVec.toNat_sub, hone]
  omega

/-- The sum passes 255 exactly when A is strictly greater. -/
theorem carryFlag_subSum_iff (x y : Byte) : carryFlag (subSum x y) = true ↔ y < x := by
  have hy := y.isLt
  rw [carryFlag_subSum, decide_eq_true_iff, BitVec.lt_def]
  omega

theorem zeroFlag_subSum_iff (x y : Byte) : zeroFlag (sumResult (subSum x y)) = true ↔ x = y + 1 := by
  rw [zeroFlag_eq_decide, decide_eq_true_iff, sumResult_subSum, sub_sub, sub_eq_zero]

/-- A byte and its own complement have no bit in common, so their sum is all ones and carries nothing. -/
theorem subSum_self (x : Byte) : subSum x x = 0xFF#9 := by
  apply BitVec.eq_of_toNat_eq
  rw [subSum_toNat]
  exact Nat.add_sub_of_le (Nat.le_of_lt_succ x.isLt)

/-! ### The obligation of 70_reset_and_hazards -/

/-- Settles O12: SUB writes A, C and Z from `subSum`, whose result and flags are those of the subtraction less one; of
equal operands that sum is 0xFF. -/
theorem subIsOneLessThanSubtraction : Obligations.SubIsOneLessThanSubtraction := by
  intro n s
  obtain ⟨calls, hexec⟩ := exec_eq_afterWrites_dispatched (.sub n) s
  refine ⟨_, hexec, sumResult_subSum s.a (s.memRead n), carryFlag_subSum_iff s.a (s.memRead n),
    zeroFlag_subSum_iff s.a (s.memRead n), fun hequal => ?_⟩
  have hsum : subSum s.a (s.memRead n) = 0xFF#9 := hequal ▸ subSum_self s.a
  exact ⟨congrArg sumResult hsum, congrArg carryFlag hsum, congrArg (fun sum => zeroFlag (sumResult sum)) hsum⟩

end Sys2Proof.Machine

/-! ## 30_encoding: decode and encode agree both ways -/

namespace Sys2Proof

/-- A cell is put together again from its two fields: no bit of it is in neither. -/
theorem join_of_fields (cell : Byte) :
    (opcodeOf cell).setWidth 8 <<< 4 ||| (operandOf cell).setWidth 8 = cell := by
  revert cell
  decide

/-- An instruction read from a cell is written back to that cell. -/
theorem encode_decode (cell : Byte) : encode (decode cell) = cell := by
  rw [encode, decode, decodeFields_opcode, decodeFields_operand, join_of_fields]

/-- Settles O2: the fields of an encoded instruction select it, and the fields of a decoded cell make it up. -/
theorem decodeEncodeAgree : Obligations.DecodeEncodeAgree := ⟨decode_encode, encode_decode⟩

end Sys2Proof

namespace Sys2Proof.Machine

/-- Settles O5: the three meanings do not read the operand, so both sides are the same term. -/
theorem ignoredOperandsChangeNothing : Obligations.IgnoredOperandsChangeNothing := fun _ _ _ => ⟨rfl, rfl, rfl⟩

/-! ### A table word placed where the machine fetches (log 18) -/

/-- Only a word of at most 8 bits is an instruction, the one in its cell (R76). -/
theorem decodeTableWord_eq_some {nbits w : Nat} {i : Instr} (h : decodeTableWord nbits w = some i) :
    decode (tableCell nbits w) = i := by
  rw [decodeTableWord, tableCells] at h
  split at h
  · next hcells =>
    obtain ⟨hdecode, -⟩ := Prod.mk.inj (Except.ok.inj hcells)
    rw [hdecode, Option.some.inj h]
  · cases h

theorem State.withFetchWord_betweenCycles (s : State) (nbits w : Nat) : (s.withFetchWord nbits w).betweenCycles :=
  ⟨rfl, rfl, rfl⟩

theorem State.withFetchWord_run (s : State) (nbits w : Nat) : (s.withFetchWord nbits w).run = .running := rfl

/-- The cell at PC is the one the word was placed in. -/
theorem State.withFetchWord_fetch (s : State) (nbits w : Nat) :
    (s.withFetchWord nbits w).fetch = decode (tableCell nbits w) :=
  congrArg decode (State.memWrite_memRead_same s.toFetch s.pc (tableCell nbits w))

/-- Settles O22: the placed cell is fetched, and it decodes to the word's instruction. -/
theorem placedWordIsRun : Obligations.PlacedWordIsRun := by
  intro s nbits w i hword
  rw [step_running (s.withFetchWord_betweenCycles nbits w) (s.withFetchWord_run nbits w), s.withFetchWord_fetch,
    decodeTableWord_eq_some hword]

end Sys2Proof.Machine

/-! ## 20_memory and 00_scope: what every step keeps -/

namespace Sys2Proof.Machine

/-! ### The canonical form of memory -/

theorem driverStep_mem (s : State) (x : Transfer) : (s.driverStep x).mem = s.mem :=
  congrArg Arch.mem (driverStep_keeps s x).1

theorem advance_mem (s : State) : s.advance.mem = s.mem := by
  obtain ⟨-, hadv⟩ | ⟨-, hadv⟩ := advance_cases s <;> rw [hadv]

/-- STA is the only instruction that writes a cell, and a write keeps the canonical form. -/
theorem exec_mem_wf {i : Instr} {s t : State} (h : exec i s = .next t) (hwf : s.mem.wf = true) : t.mem.wf = true := by
  obtain ⟨calls, rfl⟩ := exec_next_eq h
  cases i with
  | sta n => exact State.memWrite_wf n s.a hwf
  | _ => exact hwf

/-- Settles O40: of everything a step can do, only an instruction touches memory. -/
theorem memoryFormIsKept : Obligations.MemoryFormIsKept := by
  intro s t hwf h
  obtain ⟨x, -, rfl⟩ | ⟨call, rest, -, -, rfl⟩ | ⟨-, -, -, rfl⟩ | ⟨-, -, -, rfl⟩ | ⟨-, -, rfl⟩ | ⟨-, -, hexec⟩ :=
    step_cases h
  · rwa [driverStep_mem]
  · exact hwf
  · exact hwf
  · rwa [advance_mem]
  · exact hwf
  · exact exec_mem_wf hexec hwf

/-! ### The parameters (00_scope R7) -/

theorem exec_params {i : Instr} {s t : State} (h : exec i s = .next t) : t.params = s.params :=
  have ⟨_, _, _, _, hparams, _⟩ := exec_keeps h
  hparams

theorem driverStep_params (s : State) (x : Transfer) : (s.driverStep x).params = s.params :=
  have ⟨_, hparams, _⟩ := driverStep_keeps s x
  hparams

theorem advance_params (s : State) : s.advance.params = s.params := by
  obtain ⟨-, hadv⟩ | ⟨-, hadv⟩ := advance_cases s <;> rw [hadv]

theorem step_params {s t : State} (h : step s = .next t) : t.params = s.params := by
  obtain ⟨x, -, rfl⟩ | ⟨call, rest, -, -, rfl⟩ | ⟨-, -, -, rfl⟩ | ⟨-, -, -, rfl⟩ | ⟨-, -, rfl⟩ | ⟨-, -, hexec⟩ :=
    step_cases h
  · exact driverStep_params s x
  · rfl
  · rfl
  · exact advance_params s
  · rfl
  · exact exec_params hexec

/-- Settles O35: no step writes the parameters, and so no number of steps does. -/
theorem parametersNeverChange : Obligations.ParametersNeverChange := fun _ s _ h =>
  stepN_preserves (P := fun u => u.params = s.params) (fun _ _ hstep hu => (step_params hstep).trans hu) h rfl

/-! ### The architecture while a Driver call runs or waits (20_memory section 5) -/

/-- Settles O33: with a call in progress the step is the Driver's, with one waiting it begins that call, and neither
writes the architecture. -/
theorem theBusWritesNoArchitecture : Obligations.TheBusWritesNoArchitecture := by
  intro s t hbus h
  cases hx : s.active with
  | some x =>
    rw [step_active hx, Host.Outcome.next.injEq] at h
    rw [← h, (driverStep_keeps s x).1]
  | none =>
    obtain ⟨call, rest, hp⟩ := List.exists_cons_of_ne_nil (hbus.resolve_left (not_not_intro hx))
    rw [step_call hx hp, Host.Outcome.next.injEq] at h
    rw [← h, beginCall_arch]

end Sys2Proof.Machine

/-! ## 40_engine_cycle: what a cycle comes to, from inside it -/

namespace Sys2Proof.Machine

/-- Settles O28: `step_cycleResult`, and no step writes the parameters. -/
theorem waitingChangesNoOutcome : Obligations.WaitingChangesNoOutcome := fun _ _ hin h =>
  ⟨step_cycleResult hin h, step_params h⟩

/-- Settles O29: inside a cycle the boundary is ahead; a halted machine at a boundary is there already. -/
theorem cycleCompletesIfReady : Obligations.CycleCompletesIfReady := by
  intro s hready _
  by_cases hb : s.betweenCycles
  · have hresult := cycleResult_of_betweenCycles hb
    exact ⟨0, s, rfl, hb, (congrArg Prod.fst hresult).symm, (congrArg Prod.snd hresult).symm⟩
  · obtain ⟨k, t, ⟨-, hrun, htb, -⟩, ht⟩ := exists_reachesBoundary_of_enoughReady hb hready
    have hresult : (t.arch, writesOf t.trace) = s.cycleResult := (cycleResult_of_betweenCycles htb).symm.trans ht
    exact ⟨k, t, hrun, htb, congrArg Prod.fst hresult, congrArg Prod.snd hresult⟩

end Sys2Proof.Machine

/-! ## 42_arithmetic: ADD and SUB on numbers -/

namespace Sys2Proof.Machine

/-! ### What step 2 of the two instructions does -/

theorem exec_add (n : Nibble) (s : State) :
    exec (.add n) s = .next ((s.addWrites n).dispatched (addCalls s.params (s.addWrites n).a (s.addWrites n).b)) := rfl

theorem exec_sub (n : Nibble) (s : State) :
    exec (.sub n) s = .next ((s.subWrites n).dispatched (subCalls s.params (s.subWrites n).a (s.subWrites n).b)) := rfl

theorem sumResult_addSum_eq_ofNat (x y : Byte) : sumResult (addSum x y) = BitVec.ofNat 8 (x.toNat + y.toNat) :=
  sumResult_sum9 x y

theorem sumResult_subSum_eq_ofNat (x y : Byte) :
    sumResult (subSum x y) = BitVec.ofNat 8 (x.toNat + (255 - y.toNat)) := by
  rw [subSum, sumResult_sum9, complement_toNat]

/-- The writes of ADD on numbers (R120). -/
theorem State.addWrites_eq (s : State) (n : Nibble) :
    s.addWrites n = { s with
      b := s.memRead n
      a := BitVec.ofNat 8 (s.a.toNat + (s.memRead n).toNat)
      c := decide (s.a.toNat + (s.memRead n).toNat > 0xFF)
      z := decide ((s.a.toNat + (s.memRead n).toNat) % 256 = 0) } := by
  rw [← carryFlag_addSum, ← zeroFlag_ofNat, ← sumResult_addSum_eq_ofNat]
  rfl

/-- The writes of SUB on numbers (R121). -/
theorem State.subWrites_eq (s : State) (n : Nibble) :
    s.subWrites n = { s with
      b := s.memRead n
      a := BitVec.ofNat 8 (s.a.toNat + (255 - (s.memRead n).toNat))
      c := decide (s.a.toNat + (255 - (s.memRead n).toNat) > 0xFF)
      z := decide ((s.a.toNat + (255 - (s.memRead n).toNat)) % 256 = 0) } := by
  rw [← carryFlag_subSum, ← zeroFlag_ofNat, ← sumResult_subSum_eq_ofNat]
  rfl

theorem subCalls_eq_ite (params : Params) (a b : Byte) :
    subCalls params a b = if params.subDisplay = .bThenA then showB b ++ showA a else [] := by
  unfold subCalls
  split <;> simp [*]

/-! ### The obligations of 42_arithmetic -/

/-- Settles O10: the 9-bit sum of ADD, its carry and its zero test are those of the sum of the two numbers. -/
theorem addAddsTheCell : Obligations.AddAddsTheCell := by
  intro n s
  have hcell : decode (0x20 ||| n.setWidth 8) = .add n := decode_encode (.add n)
  exact ⟨hcell, by rw [exec_add, State.addWrites_eq, State.dispatched, addCalls]⟩

/-- Settles O11: the same of SUB with the complement of the cell, which is 255 less the cell. -/
theorem subAddsTheComplement : Obligations.SubAddsTheComplement := by
  intro n s
  have hcell : decode (0x30 ||| n.setWidth 8) = .sub n := decode_encode (.sub n)
  exact ⟨hcell, by rw [exec_sub, State.subWrites_eq, State.dispatched, subCalls_eq_ite]⟩

end Sys2Proof.Machine

/-! ## 40_engine_cycle: the machine's steps and the independent `Cycle()` (R101) -/

namespace Sys2Proof.Machine

/-! ### The Formatter calls of step 2, said once (R99) -/

/-- The Formatter calls an instruction makes, in order. -/
def State.drawnFields (s : State) : Instr → List FieldCall
  | .lda n => [.showA (s.memRead n)]
  | .ldi n => [.showA (immOperand n)]
  | .add n => .showB (s.memRead n) :: if s.params.addShowsA then [.showA (sumResult (addSum s.a (s.memRead n)))] else []
  | .sub n =>
    match s.params.subDisplay with
    | .none => []
    | .bThenA => [.showB (s.memRead n), .showA (sumResult (subSum s.a (s.memRead n)))]
  | .out _ => [.showOutput s.a]
  | .nop _ | .nop9 _ | .nop10 _ | .nop11 _ | .nop12 _ | .nop13 _ | .sta _ | .jmp _ | .jc _ | .jz _ | .hlt _ => []

/-- The Driver calls of those Formatter calls. -/
def State.drawnCalls (s : State) (i : Instr) : List DriverCall := (s.drawnFields i).flatMap (FieldCall.calls s.params)

/-- The state after step 2 (40_engine_cycle R92): the writes, then the drawing. -/
def State.afterExec (s : State) (i : Instr) : State := (s.afterWrites i).dispatched (s.drawnCalls i)

theorem addCalls_eq_drawnCalls (s : State) (n : Nibble) :
    addCalls s.params (s.addWrites n).a (s.addWrites n).b = s.drawnCalls (.add n) := by
  unfold addCalls State.drawnCalls State.drawnFields
  cases s.params.addShowsA <;> rfl

theorem subCalls_eq_drawnCalls (s : State) (n : Nibble) :
    subCalls s.params (s.subWrites n).a (s.subWrites n).b = s.drawnCalls (.sub n) := by
  unfold subCalls State.drawnCalls State.drawnFields
  cases s.params.subDisplay <;> rfl

theorem drawnCalls_out (s : State) (n : Nibble) : s.drawnCalls (.out n) = showOutput s.a :=
  List.flatMap_singleton (FieldCall.calls s.params) (.showOutput s.a)

/-- Every instruction answers, with its writes and its Formatter calls and nothing else. -/
theorem exec_eq_afterExec (i : Instr) (s : State) : exec i s = .next (s.afterExec i) := by
  cases i with
  | add n => rw [exec_add, addCalls_eq_drawnCalls]; rfl
  | sub n => rw [exec_sub, subCalls_eq_drawnCalls]; rfl
  | out n => rw [exec_out, State.afterExec, drawnCalls_out]; rfl
  | jc n => exact congrArg Host.Outcome.next (s.jumpIf_eq_writePc_dispatched s.c n)
  | jz n => exact congrArg Host.Outcome.next (s.jumpIf_eq_writePc_dispatched s.z n)
  | _ => rfl

/-! ### Each arm of `Arch.dispatch` is the instruction of that opcode -/

/-- A, Z and C from the sum of ADD: the 9-bit adder on the one side, numbers on the other. -/
theorem Arch.takeSum_addSum (t : Arch) (x y : Byte) :
    t.takeSum (x.toNat + y.toNat) =
      { t with
        a := sumResult (addSum x y)
        z := zeroFlag (sumResult (addSum x y))
        c := carryFlag (addSum x y) } := by
  rw [carryFlag_addSum, sumResult_addSum_eq_ofNat, zeroFlag_ofNat]
  rfl

/-- The same of SUB, whose number is 255 less the operand. -/
theorem Arch.takeSum_subSum (t : Arch) (x y : Byte) :
    t.takeSum (x.toNat + (255 - y.toNat)) =
      { t with
        a := sumResult (subSum x y)
        z := zeroFlag (sumResult (subSum x y))
        c := carryFlag (subSum x y) } := by
  rw [carryFlag_subSum, sumResult_subSum_eq_ofNat, zeroFlag_ofNat]
  rfl

theorem Arch.dispatch_add (params : Params) (t : Arch) (n : Nat) :
    t.dispatch params 2 n =
      (({ t with b := t.mem.readAt n } : Arch).takeSum (t.a.toNat + (t.mem.readAt n).toNat),
        addCalls params (({ t with b := t.mem.readAt n } : Arch).takeSum (t.a.toNat + (t.mem.readAt n).toNat)).a
          (t.mem.readAt n)) := rfl

theorem Arch.dispatch_sub (params : Params) (t : Arch) (n : Nat) :
    t.dispatch params 3 n =
      (({ t with b := t.mem.readAt n } : Arch).takeSum (t.a.toNat + (255 - (t.mem.readAt n).toNat)),
        subCalls params (({ t with b := t.mem.readAt n } : Arch).takeSum (t.a.toNat + (255 - (t.mem.readAt n).toNat))).a
          (t.mem.readAt n)) := rfl

/-- An immediate is zero as a byte exactly when its number is. -/
theorem zeroFlag_immOperand (n : Nibble) : zeroFlag (immOperand n) = (n.toNat == 0) := by
  rw [immOperand_eq_ofNat, zeroFlag_ofNat, Nat.mod_eq_of_lt (Nat.lt_of_lt_of_le n.isLt (by decide))]
  rfl

/-- A jump of the transcription is a write of PC, to itself when the jump is not taken. -/
theorem Arch.jumpIf_toNat (t : Arch) (taken : Bool) (n : Nibble) :
    t.jumpIf taken n.toNat = { t with pc := if taken = true then n else t.pc } := by
  cases taken <;> simp [Arch.jumpIf]

/-- The transcription's dispatch on an instruction's opcode and operand does the writes and the calls of step 2. -/
theorem dispatch_eq_afterWrites_drawnCalls (s : State) (i : Instr) :
    s.arch.dispatch s.params i.opcode.toNat i.operand.toNat = ((s.afterWrites i).arch, s.drawnCalls i) := by
  cases i with
  | lda n => rfl
  | add n =>
    exact (Arch.dispatch_add s.params s.arch n.toNat).trans (by
      rw [Arch.takeSum_addSum, ← addCalls_eq_drawnCalls]; rfl)
  | sub n =>
    exact (Arch.dispatch_sub s.params s.arch n.toNat).trans (by
      rw [Arch.takeSum_subSum, ← subCalls_eq_drawnCalls]; rfl)
  | ldi n =>
    have harch : ({ s.arch with a := BitVec.ofNat 8 n.toNat, z := n.toNat == 0 } : Arch) =
        (s.loadA (immOperand n)).arch := by
      rw [← zeroFlag_immOperand, ← immOperand_eq_ofNat]
      rfl
    exact Prod.ext harch (congrArg showA (immOperand_eq_ofNat n).symm)
  | jmp n => exact Prod.ext (s.arch.jumpIf_toNat true n) rfl
  | jc n => exact Prod.ext (s.arch.jumpIf_toNat s.c n) rfl
  | jz n => exact Prod.ext (s.arch.jumpIf_toNat s.z n) rfl
  | out n => exact Prod.ext rfl (drawnCalls_out s n).symm
  | _ => rfl

/-! ### `Arch.cycle` is what a cycle of the machine comes to -/

/-- The opcode of a cell as a number. -/
theorem decode_opcode_toNat (cell : Byte) : (decode cell).opcode.toNat = cell.toNat / 16 := by
  have hlt := cell.isLt
  rw [decode, decodeFields_opcode, opcodeOf_eq_shift, BitVec.toNat_setWidth, BitVec.toNat_ushiftRight,
    Nat.shiftRight_eq_div_pow]
  omega

/-- The operand of a cell as a number. -/
theorem decode_operand_toNat (cell : Byte) : (decode cell).operand.toNat = cell.toNat % 16 := by
  rw [decode, decodeFields_operand]
  simp [operandOf]

/-- The transcription of the whole cycle, in the terms of the machine's own step 2. -/
theorem cycle_eq_afterWrites (s : State) :
    s.arch.cycle s.params =
      ((s.afterWrites s.fetch).arch.advance,
        s.drawnCalls s.fetch ++ showStatus s.params (s.afterWrites s.fetch).pc (s.afterWrites s.fetch).z
          (s.afterWrites s.fetch).c) := by
  have hdispatch := dispatch_eq_afterWrites_drawnCalls s s.fetch
  rw [State.fetch, decode_opcode_toNat, decode_operand_toNat] at hdispatch
  exact congrArg (fun u : Arch × List DriverCall => (u.1.advance, u.2 ++ showStatus s.params u.1.pc u.1.z u.1.c))
    hdispatch

/-- The writes of step 2 leave the bus, the calls and the parameters alone. -/
theorem afterWrites_frame (s : State) (i : Instr) :
    (s.afterWrites i).trace = s.trace ∧ (s.afterWrites i).active = s.active ∧ (s.afterWrites i).pending = s.pending ∧
      (s.afterWrites i).params = s.params := by
  cases i <;> exact ⟨rfl, rfl, rfl, rfl⟩

/-- The instruction's calls join the calls left. -/
theorem afterExec_promisedWrites (s : State) (i : Instr) :
    (s.afterExec i).promisedWrites = s.promisedWrites ++ (s.drawnCalls i).map DriverCall.event := by
  obtain ⟨htrace, hactive, hpending, -⟩ := afterWrites_frame s i
  simp only [State.promisedWrites, State.callsLeft, State.afterExec, State.dispatched_trace, State.dispatched_active,
    State.dispatched_pending, htrace, hactive, hpending]
  cases s.active with
  | none => simp
  | some x => cases hw : x.phase.written <;> simp [hw]

/-- After step 2 the cycle comes to what the transcription gives for the whole of it. -/
theorem afterExec_cycleResult (s : State) :
    (s.afterExec s.fetch).cycleResult =
      ((s.arch.cycle s.params).1, s.promisedWrites ++ (s.arch.cycle s.params).2.map DriverCall.event) := by
  obtain ⟨-, -, -, hparams⟩ := afterWrites_frame s s.fetch
  have hstage : (s.afterExec s.fetch).stage = .dispatched := rfl
  simp only [State.cycleResult, hstage, afterExec_promisedWrites, cycle_eq_afterWrites, List.map_append,
    List.append_assoc]
  simp only [State.afterExec, State.dispatched_params, hparams, State.dispatched_pc, State.dispatched_z,
    State.dispatched_c]
  rfl

/-- At a boundary the writes promised are those made. -/
theorem promisedWrites_of_betweenCycles {s : State} (hb : s.betweenCycles) : s.promisedWrites = writesOf s.trace := by
  obtain ⟨hx, hp, -⟩ := hb
  simp [State.promisedWrites, State.callsLeft, hx, hp]

/-! ### The obligations on the whole cycle -/

/-- Settles O27: the next boundary has what the state after step 2 comes to, and that is `Arch.cycle`. -/
theorem stepsRefineTheCycle : Obligations.StepsRefineTheCycle := by
  intro s hb hrun hready
  obtain ⟨-, -, hpending, -⟩ := afterWrites_frame s s.fetch
  have hcalls : (s.afterExec s.fetch).pending.length + 6 ≤ readyAnswers s.answers := by
    rw [cycle_eq_afterWrites, List.length_append, showStatus_length] at hready
    have ⟨_, hp, _⟩ := hb
    rwa [State.afterExec, State.dispatched_pending, hpending, hp, List.nil_append]
  obtain ⟨k, t, hreach, ht⟩ := exists_reachesBoundary_of_exec hb hrun (exec_eq_afterExec s.fetch s) hcalls
  rw [afterExec_cycleResult, promisedWrites_of_betweenCycles hb] at ht
  exact ⟨k, t, hreach, congrArg Prod.fst ht, congrArg Prod.snd ht⟩

/-- Settles O30: the six of the status refresh, and five for each register drawn or four for the output field. -/
theorem writesPerCycle : Obligations.WritesPerCycle := by
  intro s
  have hcycle := congrArg (fun u : Arch × List DriverCall => u.2.length)
    (cycle_eq_afterWrites { s with params := Params.default })
  have hwrites : (s.arch.cycle Params.default).2.length =
      (({ s with params := Params.default } : State).drawnCalls s.fetch).length + 6 :=
    hcycle.trans List.length_append
  rw [hwrites]
  generalize s.fetch = i
  cases i with
  | out n => simp [drawnCalls_out, showOutput_eq_cons]
  | _ => rfl

/-- Settles O31: step 2 of STA writes the cell, and step 4 keeps memory and moves PC on. -/
theorem storeIsSeenByTheNextFetch : Obligations.StoreIsSeenByTheNextFetch := by
  intro s n hb hrun hfetch hready
  have hexec : exec s.fetch s = .next ((s.memWrite n s.a).dispatched []) := by rw [hfetch, exec_sta]
  have ⟨_, hp, _⟩ := hb
  obtain ⟨k, t, hreach, ht⟩ := exists_reachesBoundary_of_exec hb hrun hexec (by simpa [hp] using hready)
  have harch : t.arch = ((s.memWrite n s.a).dispatched []).advance.arch := by
    rw [advance_arch, ← cycleResult_arch_of_dispatched rfl, ← ht]
  have hmem : t.mem = (s.memWrite n s.a).mem := (congrArg Arch.mem harch).trans (advance_mem _)
  have hpc : t.pc = s.pc + 1 := by
    refine (congrArg Arch.pc harch).trans ((State.advance_pc _).trans (if_neg ?_))
    simp [hrun]
  have hcell : t.memRead n = s.a := by
    rw [State.memRead, hmem]
    exact State.memWrite_memRead_same s n s.a
  refine ⟨k, t, hreach, hcell, hpc, fun hnext => ?_⟩
  rw [State.fetch, hpc, ← hnext, hcell]

/-! ### Two runs, whatever the display answers (45_display_driver section 4) -/

/-- Nothing that a run goes through inside a cycle changes what the cycle comes to. -/
theorem stepN_cycleResult_of_inside {k : Nat} {s t : State} (h : stepN k s = .next t)
    (hin : ∀ j u, j < k → stepN j s = .next u → ¬ u.betweenCycles) : t.cycleResult = s.cycleResult := by
  induction k generalizing s with
  | zero =>
    cases h
    rfl
  | succ k ih =>
    obtain ⟨u, hu⟩ := step_answers s
    rw [stepN_succ_of_step hu] at h
    refine (ih h fun j v hj hv => hin (j + 1) v (Nat.succ_lt_succ hj) ?_).trans
      (step_cycleResult (hin 0 s k.succ_pos rfl) hu)
    rw [stepN_succ_of_step hu, hv]

/-- The next boundary has what the state after the first step comes to. -/
theorem ReachesBoundary.cycleResult_eq_of_step {s u t : State} {k : Nat} (h : step s = .next u)
    (hreach : ReachesBoundary s k t) : t.cycleResult = u.cycleResult := by
  obtain ⟨hpos, hrun, -, hfirst⟩ := hreach
  obtain ⟨k, rfl⟩ := Nat.exists_eq_succ_of_ne_zero hpos.ne'
  rw [stepN_succ_of_step h] at hrun
  refine stepN_cycleResult_of_inside hrun fun j v hj hv => hfirst (j + 1) v j.succ_pos (Nat.succ_lt_succ hj) ?_
  rw [stepN_succ_of_step h, hv]

/-- What a machine comes to by its next step, in the terms that its answers, polls and data lines do not enter. -/
theorem step_cycleResult_eq {s u : State} (h : step s = .next u) :
    (s.betweenCycles → s.run = .running → u.cycleResult =
      ((s.arch.cycle s.params).1, s.promisedWrites ++ (s.arch.cycle s.params).2.map DriverCall.event)) ∧
    (¬ (s.betweenCycles ∧ s.run = .running) → u.cycleResult = s.cycleResult) := by
  constructor
  · intro hb hrun
    rw [step_running hb hrun, exec_eq_afterExec, Host.Outcome.next.injEq] at h
    rw [← h, afterExec_cycleResult]
  · intro hstays
    by_cases hb : s.betweenCycles
    · have hrun : s.run = .halted := by
        cases hr : s.run
        · exact absurd ⟨hb, hr⟩ hstays
        · rfl
      rw [step_halted hb hrun, Host.Outcome.next.injEq] at h
      rw [h]
    · exact step_cycleResult hb h

/-- Settles O34: the first steps of the two runs lead to what comes to the same, and neither run changes that any
more. -/
theorem outcomeIgnoresTheOracle : Obligations.OutcomeIgnoresTheOracle := by
  intro s₁ s₂ t₁ t₂ k₁ k₂ harch hparams hstage hwrites hboundary hreach₁ hreach₂
  obtain ⟨u₁, hu₁⟩ := step_answers s₁
  obtain ⟨u₂, hu₂⟩ := step_answers s₂
  obtain ⟨hrunning₁, hstays₁⟩ := step_cycleResult_eq hu₁
  obtain ⟨hrunning₂, hstays₂⟩ := step_cycleResult_eq hu₂
  have hrun : s₁.run = s₂.run := congrArg Arch.run harch
  have hfirst : u₁.cycleResult = u₂.cycleResult := by
    by_cases h : s₁.betweenCycles ∧ s₁.run = .running
    · obtain ⟨hb, hr⟩ := h
      rw [hrunning₁ hb hr, hrunning₂ (hboundary.mp hb) (hrun ▸ hr), harch, hparams, hwrites]
    · rw [hstays₁ h, hstays₂ (by rwa [← hboundary, ← hrun]), cycleResult_congr harch hparams hstage hwrites]
  have ⟨_, _, hb₁, _⟩ := hreach₁
  have ⟨_, _, hb₂, _⟩ := hreach₂
  have hlast : (t₁.arch, writesOf t₁.trace) = (t₂.arch, writesOf t₂.trace) :=
    calc (t₁.arch, writesOf t₁.trace)
        = t₁.cycleResult := (cycleResult_of_betweenCycles hb₁).symm
      _ = u₁.cycleResult := hreach₁.cycleResult_eq_of_step hu₁
      _ = u₂.cycleResult := hfirst
      _ = t₂.cycleResult := (hreach₂.cycleResult_eq_of_step hu₂).symm
      _ = (t₂.arch, writesOf t₂.trace) := cycleResult_of_betweenCycles hb₂
  exact Prod.mk.inj hlast

end Sys2Proof.Machine

/-! ## 45_display_driver: the pins, the language of the bus trace, and the moves of DRV -/

namespace Sys2Proof.Machine

/-! ### What a step does to the bus, said once -/

/-- A step is the Driver's, or begins a call, or is the Engine's and leaves the bus alone. -/
theorem step_bus_cases {s t : State} (h : step s = .next t) :
    (∃ call phase, s.active = some ⟨call, phase⟩ ∧ t = s.driverStep ⟨call, phase⟩) ∨
    (∃ call rest, s.active = none ∧ s.pending = call :: rest ∧ t = s.beginCall call rest) ∨
    (s.active = none ∧ t.active = none ∧ t.pins = s.pins ∧ t.dout = s.dout ∧ t.trace = s.trace) := by
  obtain ⟨⟨call, phase⟩, hx, rfl⟩ | ⟨call, rest, hx, hp, rfl⟩ | ⟨hx, -, -, rfl⟩ | ⟨hx, -, -, rfl⟩ |
    ⟨⟨hx, -, -⟩, -, rfl⟩ | ⟨⟨hx, -, -⟩, -, hexec⟩ := step_cases h
  · exact .inl ⟨call, phase, hx, rfl⟩
  · exact .inr (.inl ⟨call, rest, hx, hp, rfl⟩)
  · exact .inr (.inr ⟨hx, hx, rfl, rfl, rfl⟩)
  · refine .inr (.inr ?_)
    obtain ⟨-, hadv⟩ | ⟨-, hadv⟩ := advance_cases s <;> rw [hadv] <;> exact ⟨hx, hx, rfl, rfl, rfl⟩
  · exact .inr (.inr ⟨hx, hx, rfl, rfl, rfl⟩)
  · obtain ⟨hpins, hdout, htrace, -, -, hactive, -⟩ := exec_keeps hexec
    exact .inr (.inr ⟨hx, hactive.trans hx, hpins, hdout, htrace⟩)

/-! ### The phase table (R170) -/

/-- The byte on the data lines is the call's own. -/
theorem DriverCall.byte_eq_iff (call : DriverCall) (b : Byte) :
    call.byte = b ↔ call = .writeCommand b ∨ call = .writeChar b := by
  cases call <;> simp [DriverCall.byte]

theorem pinsMatch_iff_of_idle {s : State} (hx : s.active = none) : s.pinsMatch ↔ s.pins = restingPins := by
  simp only [State.pinsMatch, hx]

theorem pinsMatch_iff_of_active {s : State} {call : DriverCall} {phase : Phase} (hx : s.active = some ⟨call, phase⟩) :
    s.pinsMatch ↔ s.pins = phasePins call phase ∧ (phase.holdsByte = true → call.byte = s.dout) := by
  simp only [State.pinsMatch, hx, DriverCall.byte_eq_iff]

theorem takeAnswer_pins (s : State) : s.takeAnswer.pins = s.pins := by
  unfold State.takeAnswer
  split <;> rfl

theorem takeAnswer_dout (s : State) : s.takeAnswer.dout = s.dout := by
  unfold State.takeAnswer
  split <;> rfl

/-- RS in the write rows is the Driver's register select (R164, R165). -/
theorem writePins_eq_regSelect (call : DriverCall) (e : Enable) :
    writePins call e = ⟨.writing, .write, call.regSelect, .write, e⟩ := by
  cases call <;> rfl

/-! ### What each pin state of the Driver moves -/

theorem State.pollPulse_pins (s : State) (call : DriverCall) :
    (s.pollPulse call).pins = { s.pins with e := .asserted } := rfl
theorem State.pollTake_pins (s : State) (call : DriverCall) :
    (s.pollTake call).pins = { s.pins with e := .deasserted } :=
  congrArg (fun row : PinRow => { row with e := .deasserted }) (takeAnswer_pins s)
theorem State.pollAgain_pins (s : State) (call : DriverCall) :
    (s.pollAgain call).pins = { s.pins with rs := .low, rw := .read } := rfl
theorem State.turnRound_pins (s : State) (call : DriverCall) :
    (s.turnRound call).pins = { s.pins with drv := .writing, dir := .write } := rfl
theorem State.turnWrite_pins (s : State) (call : DriverCall) :
    (s.turnWrite call).pins = { s.pins with rw := .write } := rfl
theorem State.writeSetup_pins (s : State) (call : DriverCall) :
    (s.writeSetup call).pins = { s.pins with rs := call.regSelect, rw := .write } := rfl
theorem State.writePulse_pins (s : State) (call : DriverCall) :
    (s.writePulse call).pins = { s.pins with e := .asserted } := rfl
theorem State.writeTake_pins (s : State) (call : DriverCall) :
    (s.writeTake call).pins = { s.pins with e := .deasserted } := rfl
theorem State.releaseBus_pins (s : State) (call : DriverCall) :
    (s.releaseBus call).pins = { s.pins with rs := .low, rw := .write } := rfl
theorem State.endCall_pins (s : State) (call : DriverCall) :
    (s.endCall call).pins = { s.pins with drv := .idle } := rfl
theorem State.beginCall_pins (s : State) (call : DriverCall) (rest : List DriverCall) :
    (s.beginCall call rest).pins = phasePins call .pollSetup := rfl

theorem driverStep_pollEnd_of_ready (s : State) (call : DriverCall) {v : Byte} (hv : busy v = false) :
    s.driverStep ⟨call, .pollEnd v⟩ = s.turnRound call := by
  simp [State.driverStep, hv]

/-- A Driver step leads from each row of the table to the row of the next phase, and from the last to rest. -/
theorem driverStep_pins {s : State} {call : DriverCall} {phase : Phase} (h : s.pins = phasePins call phase) :
    (s.driverStep ⟨call, phase⟩).pins = (phase.next s.nextAnswer).elim restingPins (phasePins call) := by
  cases phase with
  | pollSetup => exact (s.pollPulse_pins call).trans (by rw [h]; rfl)
  | pollSample => exact (s.pollTake_pins call).trans (by rw [h]; rfl)
  | pollEnd v =>
    cases hv : busy v
    · rw [driverStep_pollEnd_of_ready s call hv, s.turnRound_pins, h, Phase.next, hv]
      rfl
    · rw [driverStep_pollEnd_of_busy s call hv, s.pollAgain_pins, h, Phase.next, hv]
      rfl
  | turnRead => exact (s.turnWrite_pins call).trans (by rw [h]; rfl)
  | turnWrite => exact (s.writeSetup_pins call).trans (by rw [h]; exact (writePins_eq_regSelect call _).symm)
  | setup => exact (s.writePulse_pins call).trans (by rw [h]; cases call <;> rfl)
  | pulse => exact (s.writeTake_pins call).trans (by rw [h]; cases call <;> rfl)
  | writeEnd => exact (s.releaseBus_pins call).trans (by rw [h]; cases call <;> rfl)
  | release => exact (s.endCall_pins call).trans (by rw [h]; rfl)

/-- The write set-up puts the call's byte on the data lines, and they hold it until the release. -/
theorem driverStep_holdsByte {s : State} {call : DriverCall} {phase next : Phase}
    (h : phase.holdsByte = true → call.byte = s.dout) (hnext : phase.next s.nextAnswer = some next)
    (hholds : next.holdsByte = true) : call.byte = (s.driverStep ⟨call, phase⟩).dout := by
  cases phase with
  | turnWrite => rfl
  | setup => exact h rfl
  | pulse => exact h rfl
  | pollEnd v =>
    cases hv : busy v <;> simp only [Phase.next, hv, Option.some.injEq] at hnext <;> subst hnext <;> cases hholds
  | release => cases hnext
  | _ =>
    cases hnext
    cases hholds

/-! ### The pins stay matched -/

/-- A Driver step keeps the match, whether it goes on with the call or ends it. -/
theorem driverStep_pinsMatch {s : State} {call : DriverCall} {phase : Phase} (hx : s.active = some ⟨call, phase⟩)
    (h : s.pinsMatch) : (s.driverStep ⟨call, phase⟩).pinsMatch := by
  obtain ⟨hpins, hbyte⟩ := (pinsMatch_iff_of_active hx).mp h
  have hactive := driverStep_active s call phase
  have hrow := driverStep_pins hpins
  cases hnext : phase.next s.nextAnswer with
  | none =>
    rw [hnext] at hactive hrow
    exact (pinsMatch_iff_of_idle hactive).mpr hrow
  | some next =>
    rw [hnext] at hactive hrow
    exact (pinsMatch_iff_of_active hactive).mpr ⟨hrow, driverStep_holdsByte hbyte hnext⟩

theorem beginCall_pinsMatch (s : State) (call : DriverCall) (rest : List DriverCall) :
    (s.beginCall call rest).pinsMatch :=
  (pinsMatch_iff_of_active rfl).mpr ⟨s.beginCall_pins call rest, fun hholds => nomatch hholds⟩

/-- Settles O41: the table is followed row by row, and the Engine moves no pin. -/
theorem pinsStayMatched : Obligations.PinsStayMatched := by
  intro s t hmatch h
  obtain ⟨call, phase, hx, rfl⟩ | ⟨call, rest, -, -, rfl⟩ | ⟨hx, htx, hpins, -, -⟩ := step_bus_cases h
  · exact driverStep_pinsMatch hx hmatch
  · exact beginCall_pinsMatch s call rest
  · rw [pinsMatch_iff_of_idle htx, hpins]
    exact (pinsMatch_iff_of_idle hx).mp hmatch

/-! ### The language of the bus trace (R171) -/

theorem tracePosFrom_append (pos : TracePos) (xs ys : List BusEvent) :
    tracePosFrom pos (xs ++ ys) = (tracePosFrom pos xs).bind fun mid => tracePosFrom mid ys := by
  induction xs generalizing pos with
  | nil => rfl
  | cons event rest ih =>
    rw [List.cons_append, tracePosFrom, tracePosFrom]
    cases pos.after event with
    | none => rfl
    | some next => exact ih next

/-- Where a trace stands after a poll that no ready poll came right before. -/
theorem TracePos.after_poll {pos : TracePos} (h : pos ≠ .ready) (v : Byte) :
    pos.after (.poll v) = some (if busy v then .polling else .ready) := by
  cases pos with
  | ready => exact absurd rfl h
  | _ => rfl

/-- The event of a write, command or character, is the one that may follow a ready poll. -/
theorem TracePos.ready_after_event (call : DriverCall) : TracePos.ready.after call.event = some .atWrite := by
  cases call <;> rfl

theorem tracePosFrom_singleton (pos : TracePos) (event : BusEvent) : tracePosFrom pos [event] = pos.after event := by
  rw [tracePosFrom]
  cases pos.after event <;> rfl

/-- Where the trace stands when the Driver takes a step fits the phase it leads to. -/
theorem TracePos.fits_next {pos : TracePos} {call : DriverCall} {phase : Phase} (answer : Byte)
    (h : pos.fits (some ⟨call, phase⟩) = true) :
    ∃ pos', tracePosFrom pos (phase.events call answer) = some pos' ∧
      pos'.fits ((phase.next answer).map (Transfer.mk call)) = true := by
  cases phase with
  | pollSample =>
    refine ⟨_, (tracePosFrom_singleton pos _).trans (pos.after_poll (by simpa [fits] using h) answer), ?_⟩
    simp [fits, Phase.next]
  | pulse =>
    obtain rfl : pos = .ready := by simpa [fits] using h
    exact ⟨.atWrite, (tracePosFrom_singleton _ _).trans (ready_after_event call), rfl⟩
  | pollEnd v =>
    obtain rfl : pos = if busy v then .polling else .ready := by simpa [fits] using h
    refine ⟨_, rfl, ?_⟩
    cases hv : busy v <;> simp [fits, Phase.next, hv]
  | _ => exact ⟨pos, rfl, by simpa [fits, Phase.next] using h⟩

/-- Settles O42: the Driver emits only where the language has the event, and nothing else emits. -/
theorem traceStaysInTheLanguage : Obligations.TraceStaysInTheLanguage := by
  rintro s t ⟨pos, hpos, hfits⟩ h
  obtain ⟨call, phase, hx, rfl⟩ | ⟨call, rest, hx, -, rfl⟩ | ⟨hx, htx, -, -, htrace⟩ := step_bus_cases h
  · rw [hx] at hfits
    obtain ⟨pos', hpos', hfits'⟩ := TracePos.fits_next s.nextAnswer hfits
    refine ⟨pos', ?_, by rwa [driverStep_active]⟩
    rw [driverStep_trace, tracePosFrom_append, hpos]
    exact hpos'
  · rw [hx] at hfits
    obtain rfl : pos = .atWrite := by simpa [TracePos.fits] using hfits
    exact ⟨.atWrite, hpos, rfl⟩
  · exact ⟨pos, by rwa [htrace], by rwa [htx, ← hx]⟩

/-! ### The moves of DRV (R162) -/

/-- DRV as a phase has it (R162): the polls await, the turn-round and the write write. -/
theorem driverMoves_of_driverStep {s : State} {call : DriverCall} {phase : Phase}
    (hpins : s.pins = phasePins call phase) (hmoves : (s.driverStep ⟨call, phase⟩).drv ≠ s.drv) :
    (∃ v, phase = .pollEnd v ∧ busy v = false) ∨ phase = .release := by
  have hdrv : s.drv = (phasePins call phase).drv := congrArg PinRow.drv hpins
  have hdrv' : (s.driverStep ⟨call, phase⟩).drv = ((phase.next s.nextAnswer).elim restingPins (phasePins call)).drv :=
    congrArg PinRow.drv (driverStep_pins hpins)
  rw [hdrv, hdrv'] at hmoves
  cases phase with
  | pollEnd v =>
    cases hv : busy v
    · exact .inl ⟨v, rfl, hv⟩
    · simp [Phase.next, hv, phasePins] at hmoves
  | release => exact .inr rfl
  | _ => cases call <;> exact absurd rfl hmoves

/-- Settles O38: DRV is that of the phase, and only two phases and the beginning of a call lead to another. -/
theorem driverMovesAreThoseOfTheProtocol : Obligations.DriverMovesAreThoseOfTheProtocol := by
  intro s t hmatch h hmoves
  obtain ⟨call, phase, hx, rfl⟩ | ⟨call, rest, hx, hp, rfl⟩ | ⟨-, -, hpins, -, -⟩ := step_bus_cases h
  · obtain ⟨hpins, -⟩ := (pinsMatch_iff_of_active hx).mp hmatch
    have hdrv := congrArg PinRow.drv hpins
    obtain ⟨v, rfl, hv⟩ | rfl := driverMoves_of_driverStep hpins hmoves
    · rw [driverStep_pollEnd_of_ready s call hv]
      exact .inr (.inl ⟨hdrv, rfl, rfl, call, v, hx, hv⟩)
    · exact .inr (.inr ⟨hdrv, rfl, call, hx, by cases call <;> rfl⟩)
  · have hdrv := congrArg PinRow.drv ((pinsMatch_iff_of_idle hx).mp hmatch)
    exact .inl ⟨hdrv, rfl, rfl, call, hp, rfl⟩
  · exact absurd (congrArg PinRow.drv hpins) hmoves

end Sys2Proof.Machine

/-! ## 45_display_driver: the bus-direction discipline, and one whole call -/

namespace Sys2Proof.Machine

/-! ### The pins of a state that matches (R161, R170) -/

theorem phasePins_dir_read_iff (call : DriverCall) (phase : Phase) :
    (phasePins call phase).dir = .read ↔ (phasePins call phase).drv = .awaitingReady := by
  cases phase <;> cases call <;> simp [phasePins, writePins]

/-- E is asserted in the two pulses of the table only. -/
theorem phase_of_e_asserted {call : DriverCall} {phase : Phase} (he : (phasePins call phase).e = .asserted) :
    phase = .pollSample ∨ phase = .pulse := by
  cases phase with
  | pollSample => exact .inl rfl
  | pulse => exact .inr rfl
  | _ => cases call <;> cases he

/-- Item (a): the lines are turned to read exactly while the Driver awaits the display. -/
theorem pinsMatch_dir_read_iff {s : State} (hmatch : s.pinsMatch) : s.dir = .read ↔ s.drv = .awaitingReady := by
  cases hx : s.active with
  | none =>
    have hpins := (pinsMatch_iff_of_idle hx).mp hmatch
    rw [show s.dir = .write from congrArg PinRow.dir hpins, show s.drv = .idle from congrArg PinRow.drv hpins]
    decide
  | some x =>
    obtain ⟨hpins, -⟩ := (pinsMatch_iff_of_active (call := x.call) (phase := x.phase) hx).mp hmatch
    rw [show s.dir = _ from congrArg PinRow.dir hpins, show s.drv = _ from congrArg PinRow.drv hpins]
    exact phasePins_dir_read_iff x.call x.phase

/-- The pins during the pulse of a poll. -/
theorem pins_of_pollSample {s : State} {call : DriverCall} (hmatch : s.pinsMatch)
    (hx : s.active = some ⟨call, .pollSample⟩) :
    s.e = .asserted ∧ s.rw = .read ∧ s.dir = .read ∧ s.rs = .low := by
  obtain ⟨hpins, -⟩ := (pinsMatch_iff_of_active hx).mp hmatch
  exact ⟨congrArg PinRow.e hpins, congrArg PinRow.rw hpins, congrArg PinRow.dir hpins, congrArg PinRow.rs hpins⟩

/-- The pins and the data lines during the pulse of a write. -/
theorem pins_of_pulse {s : State} {call : DriverCall} (hmatch : s.pinsMatch) (hx : s.active = some ⟨call, .pulse⟩) :
    s.e = .asserted ∧ s.rw = .write ∧ s.dir = .write ∧ s.drv = .writing ∧ s.rs = call.regSelect ∧
      call.byte = s.dout := by
  obtain ⟨hpins, hbyte⟩ := (pinsMatch_iff_of_active hx).mp hmatch
  rw [phasePins, writePins_eq_regSelect] at hpins
  exact ⟨congrArg PinRow.e hpins, congrArg PinRow.rw hpins, congrArg PinRow.dir hpins, congrArg PinRow.drv hpins,
    congrArg PinRow.rs hpins, hbyte rfl⟩

/-- An enable pulse is that of a poll or that of a write. -/
theorem pulse_of_e_asserted {s : State} (hmatch : s.pinsMatch) (he : s.e = .asserted) :
    ∃ call, s.active = some ⟨call, .pollSample⟩ ∨ s.active = some ⟨call, .pulse⟩ := by
  cases hx : s.active with
  | none =>
    have hrest : s.e = .deasserted := congrArg PinRow.e ((pinsMatch_iff_of_idle hx).mp hmatch)
    rw [he] at hrest
    cases hrest
  | some x =>
    obtain ⟨call, phase⟩ := x
    obtain ⟨hpins, -⟩ := (pinsMatch_iff_of_active hx).mp hmatch
    obtain rfl | rfl := phase_of_e_asserted ((congrArg PinRow.e hpins).symm.trans he)
    · exact ⟨call, .inl rfl⟩
    · exact ⟨call, .inr rfl⟩

/-- Items (b) and (c), for a pulse with RW write: it is the write of the byte on the lines. -/
theorem write_of_pulse {s : State} {call : DriverCall} (hmatch : s.pinsMatch) (hx : s.active = some ⟨call, .pulse⟩) :
    (s.active = some ⟨.writeCommand s.dout, .pulse⟩ ∧ s.rs = .low) ∨
      (s.active = some ⟨.writeChar s.dout, .pulse⟩ ∧ s.rs = .asserted) := by
  obtain ⟨-, -, -, -, hrs, hbyte⟩ := pins_of_pulse hmatch hx
  obtain rfl | rfl := (call.byte_eq_iff s.dout).mp hbyte
  · exact .inl ⟨hx, hrs⟩
  · exact .inr ⟨hx, hrs⟩

/-! ### When the lines move (item (d)) -/

/-- A Driver step that moves RS, RW, DIR or the byte is none of the four around a pulse: E is and stays as the row has
it, deasserted. -/
theorem driverStep_lines (s : State) (call : DriverCall) (phase : Phase) :
    ((s.driverStep ⟨call, phase⟩).rs = s.rs ∧ (s.driverStep ⟨call, phase⟩).rw = s.rw ∧
      (s.driverStep ⟨call, phase⟩).dir = s.dir ∧ (s.driverStep ⟨call, phase⟩).dout = s.dout) ∨
    ((s.driverStep ⟨call, phase⟩).e = s.e ∧ (phasePins call phase).e = .deasserted) := by
  cases phase with
  | pollSetup => exact .inl ⟨rfl, rfl, rfl, rfl⟩
  | pollSample =>
    have hpins := s.pollTake_pins call
    exact .inl ⟨congrArg PinRow.rs hpins, congrArg PinRow.rw hpins, congrArg PinRow.dir hpins, takeAnswer_dout s⟩
  | pollEnd v =>
    cases hv : busy v
    · rw [driverStep_pollEnd_of_ready s call hv]
      exact .inr ⟨rfl, rfl⟩
    · rw [driverStep_pollEnd_of_busy s call hv]
      exact .inr ⟨rfl, rfl⟩
  | turnRead => exact .inr ⟨rfl, rfl⟩
  | turnWrite => exact .inr ⟨rfl, rfl⟩
  | setup => exact .inl ⟨rfl, rfl, rfl, rfl⟩
  | pulse => exact .inl ⟨rfl, rfl, rfl, rfl⟩
  | writeEnd => exact .inr ⟨rfl, by cases call <;> rfl⟩
  | release => exact .inr ⟨rfl, rfl⟩

theorem e_deasserted_of_lines_move {s t : State} (hmatch : s.pinsMatch) (h : step s = .next t)
    (hmoves : t.rs ≠ s.rs ∨ t.rw ≠ s.rw ∨ t.dir ≠ s.dir ∨ t.dout ≠ s.dout) : s.e = .deasserted ∧ t.e = .deasserted := by
  obtain ⟨call, phase, hx, rfl⟩ | ⟨call, rest, hx, -, rfl⟩ | ⟨-, -, hpins, hdout, -⟩ := step_bus_cases h
  · obtain ⟨hpins, -⟩ := (pinsMatch_iff_of_active hx).mp hmatch
    obtain ⟨hrs, hrw, hdir, hdout⟩ | ⟨he, hrow⟩ := driverStep_lines s call phase
    · simp [hrs, hrw, hdir, hdout] at hmoves
    · have hlow : s.e = .deasserted := (congrArg PinRow.e hpins).trans hrow
      exact ⟨hlow, he.trans hlow⟩
  · exact ⟨congrArg PinRow.e ((pinsMatch_iff_of_idle hx).mp hmatch), rfl⟩
  · have hrs : t.rs = s.rs := congrArg PinRow.rs hpins
    have hrw : t.rw = s.rw := congrArg PinRow.rw hpins
    have hdir : t.dir = s.dir := congrArg PinRow.dir hpins
    simp [hrs, hrw, hdir, hdout] at hmoves

/-! ### The bus events (R171) -/

/-- What a step adds to the trace: at the end of a poll's pulse the sample, at the end of a write's pulse the write. -/
theorem step_trace_cases {s t : State} (h : step s = .next t) :
    t.trace = s.trace ∨
    (∃ call, s.active = some ⟨call, .pollSample⟩ ∧ t = s.pollTake call ∧ t.trace = s.trace ++ [.poll s.nextAnswer]) ∨
    (∃ call, s.active = some ⟨call, .pulse⟩ ∧ t = s.writeTake call ∧ t.trace = s.trace ++ [call.event]) := by
  obtain ⟨call, phase, hx, rfl⟩ | ⟨call, rest, -, -, rfl⟩ | ⟨-, -, -, -, htrace⟩ := step_bus_cases h
  · have htrace := driverStep_trace s call phase
    cases phase with
    | pollSample => exact .inr (.inl ⟨call, hx, rfl, htrace⟩)
    | pulse => exact .inr (.inr ⟨call, hx, rfl, htrace⟩)
    | _ => exact .inl (htrace.trans (List.append_nil _))
  · exact .inl rfl
  · exact .inl htrace

/-- The step that adds an event, by the event. -/
theorem step_emits {s t : State} {event : BusEvent} (h : step s = .next t) (ht : t.trace = s.trace ++ [event]) :
    (∃ call, s.active = some ⟨call, .pollSample⟩ ∧ t = s.pollTake call ∧ event = .poll s.nextAnswer) ∨
    (∃ call, s.active = some ⟨call, .pulse⟩ ∧ t = s.writeTake call ∧ event = call.event) := by
  obtain hsame | ⟨call, hx, hstep, htrace⟩ | ⟨call, hx, hstep, htrace⟩ := step_trace_cases h
  · simp [hsame] at ht
  · exact .inl ⟨call, hx, hstep, List.singleton_inj.mp (List.append_cancel_left (ht.symm.trans htrace))⟩
  · exact .inr ⟨call, hx, hstep, List.singleton_inj.mp (List.append_cancel_left (ht.symm.trans htrace))⟩

/-- The step that adds a write event ends the pulse of a call with that event. -/
theorem step_emits_write {s t : State} {call : DriverCall} (hmatch : s.pinsMatch) (h : step s = .next t)
    (ht : t.trace = s.trace ++ [call.event]) :
    s.e = .asserted ∧ t.e = .deasserted ∧ s.rw = .write ∧ s.dir = .write ∧ s.rs = call.regSelect ∧
      s.dout = call.byte := by
  obtain ⟨other, -, -, hevent⟩ | ⟨other, hx, rfl, hevent⟩ := step_emits h ht
  · cases call <;> cases hevent
  · obtain rfl : call = other := by cases call <;> cases other <;> cases hevent <;> rfl
    obtain ⟨he, hrw, hdir, -, hrs, hbyte⟩ := pins_of_pulse hmatch hx
    exact ⟨he, rfl, hrw, hdir, hrs, hbyte.symm⟩

/-- A scripted answer is the one sampled, and it is taken. -/
theorem answers_eq_of_pollTake {s : State} (call : DriverCall) (h : s.answers ≠ []) :
    s.answers = s.nextAnswer :: (s.pollTake call).answers := by
  obtain ⟨v, rest, ha⟩ := List.exists_cons_of_ne_nil h
  rw [State.pollTake_of_answers ha, State.nextAnswer, ha]

/-- The step that adds a poll ends the pulse of a poll. -/
theorem step_emits_poll {s t : State} {v : Byte} (hmatch : s.pinsMatch) (h : step s = .next t)
    (ht : t.trace = s.trace ++ [.poll v]) :
    s.e = .asserted ∧ t.e = .deasserted ∧ s.rw = .read ∧ s.dir = .read ∧ s.rs = .low ∧
      (s.answers ≠ [] → s.answers = v :: t.answers) := by
  obtain ⟨call, hx, rfl, hevent⟩ | ⟨call, -, -, hevent⟩ := step_emits h ht
  · cases hevent
    obtain ⟨he, hrw, hdir, hrs⟩ := pins_of_pollSample hmatch hx
    exact ⟨he, rfl, hrw, hdir, hrs, answers_eq_of_pollTake call⟩
  · cases call <;> cases hevent

/-- Settles O39, item by item: the rows of the two pulses, the steps that move a line, and the steps that emit. -/
theorem busDirectionDiscipline : Obligations.BusDirectionDiscipline := by
  intro s hmatch
  refine ⟨pinsMatch_dir_read_iff hmatch, fun he hrw => ?read, fun he hrw => ?write,
    fun t h => e_deasserted_of_lines_move hmatch h, fun t h => ?grows,
    fun t b h => step_emits_write (call := .writeCommand b) hmatch h,
    fun t b h => step_emits_write (call := .writeChar b) hmatch h, fun t v h => step_emits_poll hmatch h⟩
  case read =>
    obtain ⟨call, hx | hx⟩ := pulse_of_e_asserted hmatch he
    · obtain ⟨-, -, hdir, -⟩ := pins_of_pollSample hmatch hx
      exact hdir
    · obtain ⟨-, hwrite, -⟩ := pins_of_pulse hmatch hx
      cases hrw.symm.trans hwrite
  case write =>
    obtain ⟨call, hx | hx⟩ := pulse_of_e_asserted hmatch he
    · obtain ⟨-, hread, -⟩ := pins_of_pollSample hmatch hx
      cases hrw.symm.trans hread
    · obtain ⟨-, -, hdir, hdrv, -⟩ := pins_of_pulse hmatch hx
      exact ⟨hdrv, hdir, write_of_pulse hmatch hx⟩
  case grows =>
    obtain hsame | ⟨call, -, -, htrace⟩ | ⟨call, -, -, htrace⟩ := step_trace_cases h
    · exact .inl hsame
    · exact .inr ⟨_, htrace⟩
    · exact .inr ⟨_, htrace⟩

/-! ### One call from Idle to Idle (section 2) -/

theorem stepN_succ_of_active {s : State} {x : Transfer} (hx : s.active = some x) (k : Nat) :
    stepN (k + 1) s = stepN k (s.driverStep x) := stepN_succ_of_step (step_active hx) k

/-- A ready answer ends the loop: the pulse, the sample and the first half of the turn-round. -/
theorem stepN_three_of_ready_answer {s : State} {call : DriverCall} {v : Byte} {rest : List Byte}
    (hx : s.active = some ⟨call, .pollSetup⟩) (ha : s.answers = v :: rest) (hv : busy v = false) :
    stepN 3 s = .next { s with
      drv := .writing
      dir := .write
      e := .deasserted
      dout := Config.floatingData s.draws
      draws := s.draws + 1
      trace := s.trace ++ [.poll v]
      answers := rest
      active := some ⟨call, .turnRead⟩ } := by
  have htake : (s.driverStep ⟨call, .pollSetup⟩).driverStep ⟨call, .pollSample⟩ = { s with
      e := .deasserted
      answers := rest
      trace := s.trace ++ [.poll v]
      active := some ⟨call, .pollEnd v⟩ } := State.pollTake_of_answers (s := s.pollPulse call) ha call
  rw [stepN_succ_of_active hx, stepN_succ_of_active (x := ⟨call, .pollSample⟩) rfl, htake, stepN_succ_of_active rfl,
    driverStep_pollEnd_of_ready _ call hv]
  rfl

/-- From the turn-round to rest no answer is asked for: the write, the release and the settle delay. -/
theorem stepN_six_of_turnRead {s : State} {call : DriverCall} (hx : s.active = some ⟨call, .turnRead⟩) :
    stepN 6 s = .next { s with
      drv := .idle
      rs := .low
      rw := .write
      e := .deasserted
      dout := Config.floatingData s.draws
      draws := s.draws + 1
      trace := s.trace ++ [call.event]
      delays := s.delays ++ [call.settle]
      active := none } := by
  rw [stepN_succ_of_active hx, stepN_succ_of_active (x := ⟨call, .turnWrite⟩) rfl,
    stepN_succ_of_active (x := ⟨call, .setup⟩) rfl, stepN_succ_of_active (x := ⟨call, .pulse⟩) rfl,
    stepN_succ_of_active (x := ⟨call, .writeEnd⟩) rfl, stepN_succ_of_active (x := ⟨call, .release⟩) rfl, stepN]
  simp only [State.driverStep, State.turnWrite, State.writeSetup, State.writePulse, State.writeTake, State.releaseBus,
    State.endCall, State.toPhase, State.emit, State.floatData, State.delay]

/-- A call whose first poll is ready, from the set-up of that poll to rest. -/
theorem stepN_nine_of_ready_answer {s : State} {call : DriverCall} {v : Byte} {rest : List Byte}
    (hx : s.active = some ⟨call, .pollSetup⟩) (ha : s.answers = v :: rest) (hv : busy v = false) :
    stepN 9 s = .next { s with
      drv := .idle
      dir := .write
      rs := .low
      rw := .write
      e := .deasserted
      dout := Config.floatingData (s.draws + 1)
      draws := s.draws + 2
      trace := s.trace ++ [.poll v, call.event]
      delays := s.delays ++ [call.settle]
      active := none
      answers := rest } := by
  rw [stepN_add_of_stepN (stepN_three_of_ready_answer hx ha hv) 6, stepN_six_of_turnRead rfl]
  simp only [List.append_assoc, List.singleton_append]

/-- Settles O36: the call is begun, the busy answers are waited out (O37), and the ready one lets the write through. -/
theorem driverCallRunsToIdle : Obligations.DriverCallRunsToIdle := by
  intro s call rest waits tail v hx hp ha hbusy hready
  have hbegin : stepN 1 s = .next (s.beginCall call rest) := stepN_succ_of_step (step_call hx hp) 0
  have hwaits := busyAnswersAreWaitedOut (s.beginCall call rest) call waits (v :: tail) rfl
    (beginCall_pinsMatch s call rest) ha hbusy
  have hsteps : 3 * waits.length + 10 = 1 + (3 * waits.length + 9) := by omega
  refine ⟨Config.floatingData (s.draws + 1), s.draws + 2, ?_⟩
  rw [hsteps, stepN_add_of_stepN hbegin, stepN_add_of_stepN hwaits, stepN_nine_of_ready_answer rfl rfl hready]
  cases call <;> simp only [State.beginCall, hx] <;> rfl

end Sys2Proof.Machine

/-! ## 46_display_formatter: whole fields, their bytes and the picture -/

namespace Sys2Proof.Machine

/-! ### Every step keeps whole fields (R197) -/

theorem fieldWrites_append (params : Params) (xs ys : List FieldCall) :
    fieldWrites params (xs ++ ys) = fieldWrites params xs ++ fieldWrites params ys := by
  simp only [fieldWrites, List.flatMap_append, List.map_append]

theorem beginCall_promisedWrites {s : State} {call : DriverCall} {rest : List DriverCall} (hx : s.active = none)
    (hp : s.pending = call :: rest) : (s.beginCall call rest).promisedWrites = s.promisedWrites := by
  simp [State.promisedWrites, State.callsLeft, State.beginCall, Phase.written, hx, hp]

theorem advance_promisedWrites (s : State) : s.advance.promisedWrites = s.promisedWrites := by
  obtain ⟨-, hadv⟩ | ⟨-, hadv⟩ := advance_cases s <;> rw [hadv] <;> rfl

/-- The status refresh promises one field more. -/
theorem refreshStatus_promisedWrites {s : State} (hx : s.active = none) :
    s.refreshStatus.promisedWrites = s.promisedWrites ++ fieldWrites s.params [.showStatus s.pc s.z s.c] := by
  simp [State.promisedWrites, State.callsLeft, State.refreshStatus, fieldWrites, FieldCall.calls, hx]

/-- An instruction promises the fields it draws. -/
theorem exec_promisedWrites {i : Instr} {s t : State} (h : exec i s = .next t) :
    t.promisedWrites = s.promisedWrites ++ fieldWrites s.params (s.drawnFields i) := by
  rw [exec_eq_afterExec, Host.Outcome.next.injEq] at h
  rw [← h, afterExec_promisedWrites, State.drawnCalls, fieldWrites]

/-- What a step adds to the promised writes is whole fields. -/
theorem step_promisedWrites {s t : State} (h : step s = .next t) :
    ∃ fields, t.promisedWrites = s.promisedWrites ++ fieldWrites s.params fields := by
  have nothing_more {u : State} (hu : u.promisedWrites = s.promisedWrites) :
      ∃ fields, u.promisedWrites = s.promisedWrites ++ fieldWrites s.params fields :=
    ⟨[], hu.trans (List.append_nil _).symm⟩
  obtain ⟨x, hx, rfl⟩ | ⟨call, rest, hx, hp, rfl⟩ | ⟨hx, -, -, rfl⟩ | ⟨-, -, -, rfl⟩ | ⟨-, -, rfl⟩ | ⟨-, -, hexec⟩ :=
    step_cases h
  · exact nothing_more (driverStep_promisedWrites hx)
  · exact nothing_more (beginCall_promisedWrites hx hp)
  · exact ⟨_, refreshStatus_promisedWrites hx⟩
  · exact nothing_more (advance_promisedWrites s)
  · exact nothing_more rfl
  · exact ⟨_, exec_promisedWrites hexec⟩

/-- Settles O43: to the fields so far a step adds whole fields, with the same parameters. -/
theorem wholeFieldsAreWritten : Obligations.WholeFieldsAreWritten := by
  rintro s t ⟨fields, hfields⟩ h
  obtain ⟨more, hmore⟩ := step_promisedWrites h
  exact ⟨fields ++ more, by rw [hmore, hfields, step_params h, fieldWrites_append]⟩

/-! ### The writes of one field (R197, R198) -/

theorem drawField_events (addr : Byte) (text : List Byte) :
    (drawField addr text).map DriverCall.event = .cmd (addr ||| 0x80) :: text.map .chr := by
  rw [drawField, List.map_cons, List.map_map]
  rfl

/-- Each of the four Formatter calls is a cursor command for its place and then its text. -/
theorem FieldCall.calls_events (params : Params) (field : FieldCall) :
    (field.calls params).map DriverCall.event =
      .cmd (BitVec.ofNat 8 field.place ||| 0x80) :: (field.text params).map .chr := by
  cases field <;> exact drawField_events _ _

theorem fieldWrites_cons (params : Params) (field : FieldCall) (rest : List FieldCall) :
    fieldWrites params (field :: rest) =
      (field.calls params).map DriverCall.event ++ fieldWrites params rest := by
  simp only [fieldWrites, List.flatMap_cons, List.map_append]

/-- Settles O49: each trace is its command and its text, and a digit is 0x30 or a letter's offset more. -/
theorem formatterWriteTraces : Obligations.FormatterWriteTraces := by
  refine ⟨fun v => rfl, fun v => rfl, fun params pc z c => ?status,
    fun v => drawField_events 0x4D (dec3 v), ?digits⟩
  case status => cases z <;> cases c <;> rfl
  case digits => decide

/-! ### The bytes of the fields (45_display_driver R166, 46_display_formatter R190) -/

theorem FieldCall.place_cases (field : FieldCall) :
    field.place = 0x00 ∨ field.place = 0x05 ∨ field.place = 0x0A ∨ field.place = 0x4D := by
  cases field <;> simp [place]

theorem FieldCall.cursor_mem_commandBytes (field : FieldCall) :
    BitVec.ofNat 8 field.place ||| 0x80 ∈ commandBytes := by
  obtain h | h | h | h := field.place_cases <;> rw [h] <;> decide

/-- The characters of the default parameters are among those of any. -/
theorem mem_characterBytes_of_default {b : Byte} (params : Params) (h : b ∈ characterBytes Params.default) :
    b ∈ characterBytes params := by
  have hbase := List.mem_append.mp h
  exact List.mem_append_left _ (hbase.resolve_right List.not_mem_nil)

theorem hexDigit_mem_characterBytes (n : Nibble) : hexDigit n ∈ characterBytes Params.default := by
  revert n
  decide

theorem decDigit_mem_characterBytes {k : Nat} (hk : k < 10) : decDigit k ∈ characterBytes Params.default := by
  revert k
  decide

theorem statusDigit_mem_characterBytes (params : Params) (n : Nibble) : statusDigit params n ∈ characterBytes params := by
  unfold statusDigit characterBytes
  cases params.statusHexUpper <;> revert n <;> decide

theorem hex2_mem_characterBytes {v b : Byte} (h : b ∈ hex2 v) : b ∈ characterBytes Params.default := by
  obtain rfl | rfl : b = hexDigit (v.extractLsb' 4 4) ∨ b = hexDigit (v.extractLsb' 0 4) := by simpa [hex2] using h
  all_goals exact hexDigit_mem_characterBytes _

/-- The text of a register field: its letter, the sign and two digits (R193, R194). -/
theorem labelledHex2_mem_characterBytes {label v b : Byte} (hlabel : label ∈ characterBytes Params.default)
    (h : b ∈ label :: ascii '=' :: hex2 v) : b ∈ characterBytes Params.default := by
  obtain rfl | rfl | hdigits : b = label ∨ b = ascii '=' ∨ b ∈ hex2 v := by simpa using h
  · exact hlabel
  · decide
  · exact hex2_mem_characterBytes hdigits

theorem dec3_mem_characterBytes {v b : Byte} (h : b ∈ dec3 v) : b ∈ characterBytes Params.default := by
  have hspace : ascii ' ' ∈ characterBytes Params.default := by decide
  have hbyte : v.toNat < 256 := v.isLt
  have hhundreds : decDigit (v.toNat / 100) ∈ characterBytes Params.default := decDigit_mem_characterBytes (by omega)
  have htens : decDigit (v.toNat / 10 % 10) ∈ characterBytes Params.default := decDigit_mem_characterBytes (by omega)
  have hunits : decDigit (v.toNat % 10) ∈ characterBytes Params.default := decDigit_mem_characterBytes (by omega)
  rw [dec3_eq_padded_digits] at h
  obtain rfl | rfl | rfl := by simpa using h
  · split <;> assumption
  · split <;> assumption
  · exact hunits

theorem FieldCall.text_mem_characterBytes {params : Params} {field : FieldCall} {b : Byte}
    (h : b ∈ field.text params) : b ∈ characterBytes params := by
  cases field with
  | showA v => exact mem_characterBytes_of_default params (labelledHex2_mem_characterBytes (by decide) h)
  | showB v => exact mem_characterBytes_of_default params (labelledHex2_mem_characterBytes (by decide) h)
  | showStatus pc z c =>
    obtain rfl | rfl | rfl | rfl | rfl := by simpa [text] using h
    · exact mem_characterBytes_of_default params (by decide)
    · exact mem_characterBytes_of_default params (by decide)
    · exact statusDigit_mem_characterBytes params pc
    · exact mem_characterBytes_of_default params (by cases z <;> decide)
    · exact mem_characterBytes_of_default params (by cases c <;> decide)
  | showOutput v => exact mem_characterBytes_of_default params (dec3_mem_characterBytes h)

/-- A write event of a state with whole fields is one of some field. -/
theorem exists_field_of_mem_trace {s : State} (h : s.wholeFields) {event : BusEvent} (hmem : event ∈ s.trace)
    (hwrite : event.isWrite = true) :
    ∃ field : FieldCall, event = .cmd (BitVec.ofNat 8 field.place ||| 0x80) ∨
      ∃ b ∈ field.text s.params, event = .chr b := by
  obtain ⟨fields, hfields⟩ := h
  have hpromised : event ∈ fieldWrites s.params fields :=
    hfields ▸ List.mem_append_left _ (List.mem_filter.mpr ⟨hmem, hwrite⟩)
  obtain ⟨call, hcall, rfl⟩ := List.mem_map.mp hpromised
  obtain ⟨field, -, hcalls⟩ := List.mem_flatMap.mp hcall
  have hevent := List.mem_map_of_mem (f := DriverCall.event) hcalls
  rw [FieldCall.calls_events, List.mem_cons, List.mem_map] at hevent
  exact ⟨field, hevent.imp_right fun ⟨b, hb, heq⟩ => ⟨b, hb, heq.symm⟩⟩

/-- Settles O45: a command is some field's cursor command, and a character is of some field's text. -/
theorem onlyTheFormattersBytesAreSent : Obligations.OnlyTheFormattersBytesAreSent := by
  refine fun s h => ⟨fun b hmem => ?cmd, fun b hmem => ?chr⟩
  case cmd =>
    obtain ⟨field, hevent | ⟨b', -, hevent⟩⟩ := exists_field_of_mem_trace h hmem rfl
    · cases hevent
      exact field.cursor_mem_commandBytes
    · cases hevent
  case chr =>
    obtain ⟨field, hevent | ⟨b', hb, hevent⟩⟩ := exists_field_of_mem_trace h hmem rfl
    · cases hevent
    · cases hevent
      exact FieldCall.text_mem_characterBytes hb

/-! ### The picture (R200) -/

theorem Picture.seeAll_cons (p : Picture) (event : BusEvent) (rest : List BusEvent) :
    p.seeAll (event :: rest) = (p.see event).bind fun q => q.seeAll rest := by
  rw [seeAll]
  cases p.see event <;> rfl

theorem Picture.seeAll_append (p : Picture) (xs ys : List BusEvent) :
    p.seeAll (xs ++ ys) = (p.seeAll xs).bind fun q => q.seeAll ys := by
  induction xs generalizing p with
  | nil => rfl
  | cons event rest ih =>
    rw [List.cons_append, seeAll_cons, seeAll_cons]
    cases p.see event with
    | none => rfl
    | some q => exact ih q

/-- A poll shows nothing, so the picture is that of the write trace. -/
theorem Picture.seeAll_writesOf (p : Picture) (trace : List BusEvent) : p.seeAll (writesOf trace) = p.seeAll trace := by
  induction trace generalizing p with
  | nil => rfl
  | cons event rest ih =>
    have hrest : (p.see event).bind (fun q => q.seeAll (writesOf rest)) = p.seeAll (event :: rest) := by
      rw [seeAll_cons]
      exact congrArg (p.see event).bind (funext ih)
    cases event with
    | poll v => exact ih p
    | cmd b => exact (p.seeAll_cons _ _).trans hrest
    | chr b => exact (p.seeAll_cons _ _).trans hrest

theorem Picture.charAt_cons_same (p : Picture) (addr : Nat) (b : Byte) (cursor : Option (BitVec 7)) :
    (Picture.mk ((addr, b) :: p.cells) cursor).charAt addr = b := by
  simp [charAt]

theorem Picture.charAt_cons_other (p : Picture) {addr other : Nat} (b : Byte) (cursor : Option (BitVec 7))
    (h : addr ≠ other) : (Picture.mk ((addr, b) :: p.cells) cursor).charAt other = p.charAt other := by
  simp [charAt, h]

theorem Picture.see_chr {p : Picture} {cursor : BitVec 7} (hc : p.cursor = some cursor) (b : Byte) :
    p.see (.chr b) = some ⟨(cursor.toNat, b) :: p.cells, cursorAfter cursor⟩ := by
  simp [see, hc]

/-- A text of this length, written from here, stays where the cursor is known (log 13). -/
def RoomFor (start length : Nat) : Prop :=
  start + length ≤ 0x0F ∨ (0x4D ≤ start ∧ start + length ≤ 0x50)

/-- With room for one more character the cursor moves on by one, and there is room for the rest. -/
theorem cursorAfter_of_room {cursor : BitVec 7} {n : Nat} (h : RoomFor cursor.toNat (n + 1)) :
    cursorAfter cursor = some (cursor + 1) ∧ (cursor + 1).toNat = cursor.toNat + 1 ∧ RoomFor (cursor.toNat + 1) n := by
  unfold RoomFor at h ⊢
  refine ⟨if_pos (by omega), ?_, by omega⟩
  have hone : (1 : BitVec 7).toNat = 1 := rfl
  rw [BitVec.toNat_add, hone]
  omega

/-- A text written where there is room for it shows there, and nothing else of the picture changes. -/
theorem Picture.seeAll_text {p : Picture} {cursor : BitVec 7} {text : List Byte} (hc : p.cursor = some cursor)
    (hroom : RoomFor cursor.toNat text.length) :
    ∃ q, p.seeAll (text.map .chr) = some q ∧
      (∀ k < text.length, some (q.charAt (cursor.toNat + k)) = text[k]?) ∧
      (∀ addr, (addr < cursor.toNat ∨ cursor.toNat + text.length ≤ addr) → q.charAt addr = p.charAt addr) := by
  induction text generalizing p cursor with
  | nil => exact ⟨p, rfl, fun k hk => absurd hk k.not_lt_zero, fun _ _ => rfl⟩
  | cons b rest ih =>
    obtain ⟨hafter, hsucc, hrest⟩ := cursorAfter_of_room hroom
    obtain ⟨q, hq, hshown, hkept⟩ := ih (p := ⟨(cursor.toNat, b) :: p.cells, some (cursor + 1)⟩) rfl (hsucc ▸ hrest)
    rw [hsucc] at hshown hkept
    refine ⟨q, ?seen, fun k hk => ?shown, fun addr haddr => ?kept⟩
    case seen =>
      rw [List.map_cons, seeAll_cons, see_chr hc, hafter]
      exact hq
    case shown =>
      cases k with
      | zero => rw [Nat.add_zero, hkept _ (.inl (Nat.lt_succ_self _)), charAt_cons_same, List.getElem?_cons_zero]
      | succ k =>
        rw [List.getElem?_cons_succ, ← hshown k (Nat.lt_of_succ_lt_succ hk), Nat.add_assoc, Nat.add_comm 1 k]
    case kept =>
      rw [List.length_cons] at haddr
      rw [hkept addr (by omega), charAt_cons_other p b _ (by omega)]

/-- Each field has room at its place (R198). -/
theorem FieldCall.roomFor_text (params : Params) (field : FieldCall) :
    RoomFor field.place (field.text params).length := by
  cases field with
  | showA v => exact .inl (by decide : 0x00 + 4 ≤ 0x0F)
  | showB v => exact .inl (by decide : 0x05 + 4 ≤ 0x0F)
  | showStatus pc z c => exact .inl (by decide : 0x0A + 5 ≤ 0x0F)
  | showOutput v => exact .inr ⟨le_refl _, by rw [text, dec3_length, place]⟩

/-- The cursor command of a field sets the cursor to its place and shows nothing. -/
theorem FieldCall.see_cursor (field : FieldCall) (p : Picture) :
    p.see (.cmd (BitVec.ofNat 8 field.place ||| 0x80)) = some { p with cursor := some (BitVec.ofNat 7 field.place) } := by
  have hbit : (BitVec.ofNat 8 field.place ||| 0x80).getLsbD 7 = true ∧
      (BitVec.ofNat 8 field.place ||| 0x80).setWidth 7 = BitVec.ofNat 7 field.place := by
    obtain h | h | h | h := field.place_cases <;> rw [h] <;> decide
  simp only [Picture.see, hbit, ↓reduceIte]

theorem FieldCall.cursor_toNat (field : FieldCall) : (BitVec.ofNat 7 field.place).toNat = field.place := by
  cases field <;> rfl

/-- Settles O50: the cursor command leads to the place, where there is room for the text. -/
theorem fieldsAreDrawnAtTheirPlaces : Obligations.FieldsAreDrawnAtTheirPlaces := by
  intro params field p
  have hroom := field.roomFor_text params
  rw [← field.cursor_toNat] at hroom
  obtain ⟨q, hq, hshown, hkept⟩ :=
    Picture.seeAll_text (p := { p with cursor := some (BitVec.ofNat 7 field.place) }) rfl hroom
  rw [field.cursor_toNat] at hshown hkept
  refine ⟨q, ?_, hshown, hkept⟩
  rw [field.calls_events, Picture.seeAll_cons, field.see_cursor]
  exact hq

/-- Whole fields are always seen, one after the other. -/
theorem exists_seeAll_fieldWrites (params : Params) (fields : List FieldCall) (p : Picture) :
    ∃ q, p.seeAll (fieldWrites params fields) = some q := by
  induction fields generalizing p with
  | nil => exact ⟨p, rfl⟩
  | cons field rest ih =>
    obtain ⟨mid, hmid, -, -⟩ := fieldsAreDrawnAtTheirPlaces params field p
    obtain ⟨q, hq⟩ := ih mid
    exact ⟨q, by rw [fieldWrites_cons, Picture.seeAll_append, hmid]; exact hq⟩

/-- Settles O51: the writes made are a beginning of whole fields, and a beginning of what is seen is seen. -/
theorem thePictureIsAlwaysDefined : Obligations.ThePictureIsAlwaysDefined := by
  rintro s ⟨fields, hfields⟩
  obtain ⟨q, hq⟩ := exists_seeAll_fieldWrites s.params fields Picture.blank
  rw [← hfields, State.promisedWrites, Picture.seeAll_append, Option.bind_eq_some_iff] at hq
  obtain ⟨mid, hmid, -⟩ := hq
  exact ⟨mid, by rw [State.picture, ← Picture.seeAll_writesOf, hmid]⟩

end Sys2Proof.Machine

/-! ## 10_state and 70_reset_and_hazards: reset -/

namespace Sys2Proof.Machine

/-- A machine at rest that has drawn nothing and promised nothing meets the four invariants. -/
theorem invariants_of_fresh {s : State} (hmem : s.mem.wf = true) (hx : s.active = none) (hpins : s.pins = restingPins)
    (htrace : s.trace = []) (hp : s.pending = []) :
    s.mem.wf = true ∧ s.pinsMatch ∧ s.traceInLanguage ∧ s.wholeFields := by
  refine ⟨hmem, (pinsMatch_iff_of_idle hx).mpr hpins, ⟨.atWrite, ?language, ?fits⟩, [], ?fields⟩
  case language => rw [htrace, tracePosFrom]
  case fits => rw [hx]; rfl
  case fields => simp [State.promisedWrites, State.callsLeft, htrace, hx, hp, fieldWrites]

/-- Settles O44: all three resets leave the machine so, with no image in memory or with one loaded in canonical form. -/
theorem resetMeetsTheInvariants : Obligations.ResetMeetsTheInvariants := by
  rintro s (rfl | ⟨params, image, rfl⟩ | ⟨u, image, rfl⟩)
  · exact invariants_of_fresh rfl rfl rfl rfl rfl
  · exact invariants_of_fresh (Memory.ofImage_wf image) rfl rfl rfl rfl
  · exact invariants_of_fresh (Memory.ofImage_wf image) rfl rfl rfl rfl

/-- An image of 16 bytes is read back cell by cell (20_memory R56). -/
theorem readAt_ofImage_of_wellFormed {image : Image} (h : image.wellFormed = true) (cell : Nibble) :
    some ((Memory.ofImage image).readAt cell.toNat) = image[cell.toNat]? := by
  have hlength : image.length = 16 := by simpa [Image.wellFormed] using h
  have hcell : cell.toNat < image.length := hlength ▸ cell.isLt
  have hread := Memory.readAt_ofImageFrom image 0 cell.toNat (by simpa [memorySize] using cell.isLt)
  rw [Nat.zero_add] at hread
  rw [Memory.ofImage, hread, List.getD_eq_getElem?_getD, List.getElem?_eq_getElem hcell, Option.getD_some]

/-- Settles O46: the three states are `State.resetWith` in their registers, and two of them hold the image. -/
theorem engineResetValues : Obligations.EngineResetValues := by
  intro params image himage
  constructor
  · intro u
    simp only [List.forall_mem_cons]
    exact ⟨⟨rfl, rfl, rfl, rfl, rfl, rfl, rfl⟩, ⟨rfl, rfl, rfl, rfl, rfl, rfl, rfl⟩,
      ⟨rfl, rfl, rfl, rfl, rfl, rfl, rfl⟩, List.forall_mem_nil _⟩
  · intro u
    simp only [List.forall_mem_cons]
    exact ⟨readAt_ofImage_of_wellFormed himage, readAt_ofImage_of_wellFormed himage, List.forall_mem_nil _⟩

/-- Settles O47: the Driver's rows of `State.resetWith`, which all three states have. -/
theorem driverResetValues : Obligations.DriverResetValues := by
  intro params image u
  simp only [List.forall_mem_cons]
  exact ⟨⟨rfl, rfl, rfl, rfl, rfl, rfl, rfl, rfl⟩, ⟨rfl, rfl, rfl, rfl, rfl, rfl, rfl, rfl⟩,
    ⟨rfl, rfl, rfl, rfl, rfl, rfl, rfl, rfl⟩, List.forall_mem_nil _⟩

end Sys2Proof.Machine
